-- ==== Sys2Proof/Word.lean ====
section
/-! DEFINITION. The two word types of the engine: one line level or flag bit, and one sample.
Every value of the engine is unsigned (spec 00_scope section 6.1, 41_filter R123). -/

namespace Sys2Proof

/-- One bit: a line level, the command word, a sampled bit (00_scope section 6.1). -/
abbrev Bit := BitVec 1

/-- One raw sample, history entry or result: an unsigned value 0 to 255 (00_scope R10). -/
abbrev Byte := BitVec 8

end Sys2Proof
end

