-- ==== Sys2Proof/Config.lean ====
section
/-! DEFINITION. What one build of the engine fixes (spec 00_scope R6 to R10) and the free values of
the data-out line (R11). -/

namespace Sys2Proof

/-- The parameters of one built engine: `N` (00_scope R6), `ACC_W` (R7) and `T_SETTLE` (R9). They
never change while the engine runs (10_state R33). -/
structure Build where
  /-- `N`, the capacity of the history buffer. -/
  n : Nat
  /-- `ACC_W`, the width of the sum of the entries. -/
  accW : Nat
  /-- `T_SETTLE`, the length of one settling pause, in ticks. -/
  tSettle : Nat
  deriving DecidableEq, Repr

/-- The default build: `N = 8` (00_scope R6) and `ACC_W = 16` (R7). The spec leaves `T_SETTLE` open
(R9): DESIGN CHOICE 1, the least legal value (log 4, unsafe). -/
def Config.reference : Build := { n := 8, accW := 16, tSettle := 1 }

/-- `CUR_W = max(1, ceil(log2 N))`, the width of the write cursor (00_scope R8). -/
def Config.curW (b : Build) : Nat := if b.n ≤ 2 then 1 else Nat.log2 (b.n - 1) + 1

/-- `HDR`, the command header in time order: start, mode, channel (00_scope R10, 30_encoding R51). -/
def Config.header : List Bit := [1, 1, 0]

/-- The data-out oracle (00_scope R11): the level of `DOUT` at the `i`-th sample that the
environment has not fixed otherwise. A FREE VALUE (log 2, safe): nothing constrains it. -/
opaque Config.dout : Nat → Bit

end Sys2Proof
end

