-- ==== Sys2Proof/Syntax.lean ====
section
/-! DEFINITION. The syntax: the three rows of the opcode table, the encoded forms they are read
from, the lines, and the script lines (spec 30_encoding, 00_scope section 6.3). -/

namespace Sys2Proof

/-- One constructor per row of spec/opcode_table.json (30_encoding R57). -/
inductive Instr where
  /-- `read_channel_0()`: one raw sample (40_acquisition R62). -/
  | acq
  /-- `filtered_read()`: one filtered sample (41_filter R84). -/
  | fread
  /-- The wire frame of one transaction whose eight response bits are the byte `d`, most significant
  first (30_encoding R53). Not a host command. -/
  | frame (d : Byte)
  deriving DecidableEq, Repr

/-- The encoded forms an `Instr` is read from (30_encoding R49): the 1-bit command word `CMD` and the
slots of a `FRAME` in time order, first on the wire first. -/
inductive Code where
  | cmd (op : Bit)
  | frame (slots : List Bit)
  deriving DecidableEq, Repr

/-- The three output lines the sequencer writes, by name (20_memory R36). -/
inductive Line where
  | csN
  | clk
  | din
  deriving DecidableEq, Repr

/-- The levels of the three output lines at one moment, in the order `CS_N CLK DIN` that the step
table uses (40_acquisition R63). -/
structure Levels where
  csN : Bit
  clk : Bit
  din : Bit
  deriving DecidableEq, Repr

/-- A host command that a script line can name (30_encoding R60). -/
inductive Cmd where
  | acq
  | fread
  deriving DecidableEq, Repr

/-- The lines of a script (30_encoding R60) and its directives (R61). -/
inductive ScriptLine where
  /-- `ACQ` or `FREAD`: start it, wait for step 37, note the result. -/
  | op (c : Cmd)
  /-- `; text` -/
  | comment (text : String)
  /-- `RESET` while the engine is idle. -/
  | reset
  /-- An operation that `RESET` cuts short in place of its step `k` (R61 "during step s"). -/
  | resetDuring (c : Cmd) (k : Fin 38)
  /-- `DEV b0 b1 ...`: the bytes the following transactions are answered with. -/
  | dev (bytes : List Byte)
  /-- `EXPECT v`: the result of the operation on the previous line is `v`. -/
  | expect (v : Byte)
  deriving DecidableEq, Repr

end Sys2Proof
end

