-- ==== Sys2Proof/WellFormed.lean ====
section
/-! DEFINITION. Which builds, encoded forms, instructions and scripts are legal. Each check has an
ill-formed term in Tests/Slice0.lean that it refuses. -/

namespace Sys2Proof

/-- A legal build: `N >= 1` (00_scope R6), `2^ACC_W > 255 * N` (R7), `T_SETTLE > 0` (R9). -/
def Build.legal (b : Build) : Bool :=
  decide (1 ≤ b.n) && decide (255 * b.n < 2 ^ b.accW) && decide (1 ≤ b.tSettle)

/-- A legal encoded form. Both values of the command word are defined (30_encoding R50); a frame has
eleven slots and the one header the engine sends (R53, R58). -/
def Code.wellFormed : Code → Bool
  | .cmd _ => true
  | .frame slots => decide (slots.length = 11) && decide (slots.take 3 = Config.header)

/-- An instruction a host can start: `FRAME` is no host command (30_encoding R57). -/
def Instr.isHostCommand : Instr → Bool
  | .acq => true
  | .fread => true
  | .frame _ => false

/-- A legal instruction. Every term is one: the commands have no operand (30_encoding R50) and all
256 responses are legal (R58). -/
def Instr.wellFormed : Instr → Bool
  | .acq => true
  | .fread => true
  | .frame d => decide (d.toNat < 256)

/-- Why a script is none (30_encoding R61). -/
inductive ScriptError where
  /-- `EXPECT` on a line that no operation precedes; comment lines between the two do not count
  (95_test_vectors P7). Safe: such a script is not run. -/
  | expectWithoutOperation
  /-- `DEV` with no byte. Safe: such a script is not run. -/
  | devWithoutBytes
  /-- A transaction after the last byte of the `DEV` line in force: "after the list is used up the
  script must give another `DEV`". Safe: such a script is not run. -/
  | devUsedUp
  deriving DecidableEq, Repr

/-- Whether `EXPECT` may stand on the line after this one: after an operation that ran to its result,
with comment lines passed over. -/
def ScriptLine.resultStands (before : Bool) : ScriptLine → Bool
  | .op _ => true
  | .comment _ => before
  | .reset => false
  | .resetDuring _ _ => false
  | .dev _ => false
  | .expect _ => false

/-- Whether the line starts a transaction: an operation does, and one that a reset cuts short does once
its step 0 has been performed (40_acquisition R64). -/
def ScriptLine.startsTransaction : ScriptLine → Bool
  | .op _ => true
  | .comment _ => false
  | .reset => false
  | .resetDuring _ k => decide (k.val ≠ 0)
  | .dev _ => false
  | .expect _ => false

/-- How many bytes the `DEV` line in force has left after this line; `none` before the first `DEV` line,
where nothing binds the answers (00_scope R11, 95_test_vectors P6). A reset takes none. -/
def ScriptLine.bytesLeft (left : Option Nat) (l : ScriptLine) : Option Nat :=
  match l with
  | .dev bytes => some bytes.length
  | l => if l.startsTransaction then left.map (· - 1) else left

/-- What is wrong with a line, if anything. -/
def ScriptLine.error (before : Bool) (left : Option Nat) (l : ScriptLine) : Option ScriptError :=
  match l with
  | .dev bytes => if bytes.isEmpty then some .devWithoutBytes else none
  | .expect _ => if before then none else some .expectWithoutOperation
  | l => if l.startsTransaction && decide (left = some 0) then some .devUsedUp else none

/-- The first error of the lines, if any, after lines that leave `before` and `left`. -/
def Script.firstErrorFrom (before : Bool) (left : Option Nat) : List ScriptLine → Option ScriptError
  | [] => none
  | l :: rest =>
    match l.error before left with
    | some e => some e
    | none => Script.firstErrorFrom (l.resultStands before) (l.bytesLeft left) rest

/-- The first error of a script, if any (30_encoding R60, R61). -/
def Script.firstError (ls : List ScriptLine) : Option ScriptError := Script.firstErrorFrom false none ls

/-- A legal script (30_encoding R60, R61): every `EXPECT` speaks of the operation on the line before,
every `DEV` gives bytes, and no `DEV` list is overrun. -/
def Script.wellFormed (ls : List ScriptLine) : Bool := (Script.firstError ls).isNone

end Sys2Proof
end

