-- ==== Sys2Proof/Decode.lean ====
section
/-! DEFINITION. The decoder of the command word and of the frame pattern, the bit helpers of the
wire, and after them the encoder (spec 30_encoding R49 to R59). -/

namespace Sys2Proof

/-- Why an encoded form is no instruction. Only frame patterns can fail: the command space is
complete (30_encoding R58). -/
inductive DecodeError where
  /-- The pattern has not the eleven slots of a frame (30_encoding R53, R59). Safe: the engine emits
  no such pattern. -/
  | frameLength
  /-- The header is not `(1, 1, 0)` (30_encoding R58). Safe: the engine sends no other. -/
  | frameHeader
  deriving DecidableEq, Repr

/-- `{s[6:0], d}`: shift left by one, insert `d` at bit 0, drop bit 7 (40_acquisition R71). -/
def shiftIn (s : Byte) (d : Bit) : Byte := s.extractLsb' 0 7 ++ d

/-- `Assemble`: the raw sample of a sequence of sampled bits in time order (40_acquisition R77). -/
def assemble (ds : List Bit) : Byte := ds.foldl shiftIn 0

/-- The bit of the answer byte `p` at result pulse `k`: bit `7 - k` (20_memory R37). -/
def answerBit (p : Byte) (k : Fin 8) : Bit := p.extractLsb' (7 - k.val) 1

/-- The eight response slots of the byte `p` in time order (30_encoding R52). -/
def responseSlots (p : Byte) : List Bit :=
  [answerBit p 0, answerBit p 1, answerBit p 2, answerBit p 3,
   answerBit p 4, answerBit p 5, answerBit p 6, answerBit p 7]

/-- The command word selects `ACQ` at 0 and `FREAD` at 1; total (30_encoding R50, R57). -/
def decodeCmd (op : Bit) : Instr := if op = 0 then .acq else .fread

/-- A frame pattern: eleven slots in time order, the header `1 1 0`, then the response
(30_encoding R53). -/
def decodeFrame (slots : List Bit) : Except DecodeError Instr :=
  if slots.length ≠ 11 then .error .frameLength
  else if slots.take 3 ≠ Config.header then .error .frameHeader
  else .ok (.frame (assemble (slots.drop 3)))

/-- The decoder, total on every encoded form (30_encoding R57, R58). -/
def decode : Code → Except DecodeError Instr
  | .cmd op => .ok (decodeCmd op)
  | .frame slots => decodeFrame slots

/-- The encoder: the command word (30_encoding R50) or the slots of the frame (R53). -/
def encode : Instr → Code
  | .acq => .cmd 0
  | .fread => .cmd 1
  | .frame d => .frame (Config.header ++ responseSlots d)

/-- The `len` bits of `w` from bit `len - 1` down to bit 0: a pattern read as one number has its
leftmost symbol, the first on the wire, as its highest bit (log 8). -/
def slotsOfNat : Nat → Nat → List Bit
  | 0, _ => []
  | len + 1, w => BitVec.ofNat 1 (w / 2 ^ len) :: slotsOfNat len w

/-- The encoded form a table word stands for: a row of at most one byte is the command word, whose
format has bit 0 only (30_encoding R50); a longer one is a frame pattern of eleven slots, the bits
above it zero (R53). DESIGN CHOICE: see log 8. -/
def codeOfTableWord (nbits w : Nat) : Option Code :=
  if nbits ≤ 8 then some (.cmd (BitVec.ofNat 1 w))
  else if w < 2 ^ 11 then some (.frame (slotsOfNat 11 w))
  else none

/-- The instruction the decoder reads from a word numbered as spec/opcode_table.json numbers it. -/
def decodeTableWord (nbits w : Nat) : Option Instr :=
  match codeOfTableWord nbits w with
  | none => none
  | some c =>
    match decode c with
    | .ok i => some i
    | .error _ => none

end Sys2Proof
end

