-- ==== Sys2Proof/Machine/State.lean ====
section
/-! DEFINITION. The state of the engine as plain data (spec 10_state R13), the inputs and free values
of its environment, the reasons a step stops, and the state after reset (70_reset R107). -/

namespace Sys2Proof.Machine

/-- The sequencer position: `IDLE` or a step number 0 to 37 (10_state R17). -/
inductive Seq where
  | idle
  | step (k : Fin 38)
  deriving DecidableEq, Repr

/-- The levels the host drives in one tick (10_state R28, R30), and whether anything else drives an
output line in it (70_reset R113, log 10). -/
structure HostInput where
  /-- `rst` -/
  rst : Bool
  /-- `cmd_valid` -/
  cmdValid : Bool
  /-- `cmd_op`: 0 ACQ, 1 FREAD (30_encoding R50) -/
  cmdOp : Bit
  /-- another driver is on `CS_N`, `CLK` or `DIN`, or another master on the converter -/
  foreign : Bool
  deriving DecidableEq, Repr

/-- The engine and its environment. The first ten fields are the table of 10_state R13. -/
structure State where
  /-- `CS_N` (10_state R14) -/
  csN : Bit
  /-- `CLK` (10_state R15) -/
  clk : Bit
  /-- `DIN` (10_state R16) -/
  din : Bit
  /-- `SEQ` (10_state R17) -/
  seq : Seq
  /-- `OPREG` (10_state R18) -/
  opreg : Bit
  /-- `SHIFT` (10_state R19) -/
  shift : Byte
  /-- `RESULT` (10_state R20) -/
  result : Byte
  /-- `HIST[0..N-1]` (10_state R22); its length is `N` (Safety.lean, `histWf`) -/
  hist : List Byte
  /-- `CUR` (10_state R23), below `N` -/
  cur : Nat
  /-- `INIT` (10_state R24) -/
  init : Bool
  /-- `PTMR`, ticks left of the pause that follows a line write (10_state R26, 70_reset R121) -/
  ptmr : Nat
  /-- the parameters of this build (10_state R33 (a)); no step changes it (log 3) -/
  build : Build
  /-- the host's port levels in the ticks to come, this tick's first; after the last entry the host
  is quiet (log 1) -/
  host : List HostInput
  /-- the bytes the environment has fixed for the transactions to come (30_encoding R61, log 2) -/
  oracle : List Byte
  /-- the byte fixed for the transaction in progress, if any (log 2) -/
  answer : Option Byte
  /-- how many free bits of `DOUT` have been drawn (log 2) -/
  draws : Nat
  deriving DecidableEq, Repr

/-- Why a step faults: there is NO reason. The engine raises no exception under any condition
(60_exceptions R94, log 14), so the type is empty: raised by nobody, safe. -/
inductive Fault where
  deriving DecidableEq, Repr

/-- Why a step has no meaning. -/
inductive Refusal where
  /-- Raised by an arm of `exec` whose instruction has no meaning yet; none is left. Safe. -/
  | notModelled (mnemonic : String)
  /-- Raised by every meaning and by `step` when the build has `N = 0`: not a legal build
  (00_scope R6, 93 A19). Safe. -/
  | illegalCapacity
  /-- Raised by every meaning and by `step` when `2^ACC_W <= 255 * N`: the spec gives such a build no
  meaning (00_scope R7, 93 A6). Safe. -/
  | illegalAccumulator
  /-- Raised by every meaning and by `step` when `T_SETTLE = 0`: not a legal build (00_scope R9,
  95 V7). Safe. -/
  | illegalSettle
  /-- Raised by `step` when anything else drives a line of the engine while `BUSY = 1`: such a system
  has no meaning, "refused, not guessed" (10_state R21, 70_reset R113, 93 A8; log 10). Safe. -/
  | linesContended
  /-- Raised by the meaning of `FRAME` when no frame is in progress (`SEQ` is `IDLE` or 37): a frame
  is no host command (30_encoding R57, log 7). Safe. -/
  | noFrameInProgress
  deriving DecidableEq, Repr

/-- A build right after reset, with an environment that has fixed nothing (70_reset R107). -/
def State.powerOn (b : Build) : State where
  csN := 1
  clk := 0
  din := 1
  seq := .idle
  opreg := 0
  shift := 0
  result := 0
  hist := List.replicate b.n 0
  cur := 0
  init := false
  ptmr := 0
  build := b
  host := []
  oracle := []
  answer := none
  draws := 0

/-- The default build right after reset (70_reset R107). The engine's fields are the spec's; `host`,
`oracle`, `answer`, `draws` and `T_SETTLE` are the model's (logs 1, 2, 4). -/
def State.reset : State := State.powerOn Config.reference

end Sys2Proof.Machine
end

