-- ==== Sys2Proof/Machine/Ops.lean ====
section
/-! DEFINITION. The named operations over the lines, the registers, the history and the host's
inputs. The engine takes no exception and returns from none (spec 60_exceptions R94, R99, R100), so
no operation for either stands here; its only whole-state operation is reset (70_reset R108). -/

namespace Sys2Proof.Machine

/-- `PinWrite(L, b)`: line `L` is driven to `b` until the next write to it (20_memory R36). -/
def pinWrite (l : Line) (b : Bit) (s : State) : State :=
  match l with
  | .csN => { s with csN := b }
  | .clk => { s with clk := b }
  | .din => { s with din := b }

/-- The levels on the three output lines. -/
def levels (s : State) : Levels := { csN := s.csN, clk := s.clk, din := s.din }

/-- The levels of the lines whenever the engine is idle (10_state R31, 70_reset R106). -/
def idleLevels : Levels := { csN := 1, clk := 0, din := 1 }

/-- `PinRead(DOUT)` at result pulse `k` (00_scope R11): the bit the environment has fixed for this
transaction, else a free value. -/
def pinRead (k : Fin 8) (s : State) : Bit :=
  match s.answer with
  | some p => answerBit p k
  | none => Config.dout s.draws

/-- The state after a read of `DOUT`: nothing of the engine changes (20_memory R41 (a)); a free value,
once drawn, is not drawn again. -/
def drawn (s : State) : State :=
  match s.answer with
  | some _ => s
  | none => { s with draws := s.draws + 1 }

/-- The fall of `CS_N` activates the converter for one transaction (60_exceptions R104 (a)): the
environment's next fixed byte, if it has one, answers it (30_encoding R61). -/
def beginTransaction (s : State) : State :=
  { s with answer := s.oracle.head?, oracle := s.oracle.tail }

/-- One entry of the history by its index (20_memory R35); there is none outside `[0, N)`. -/
def histRead (s : State) (i : Nat) : Option Byte := s.hist[i]?

/-- `for i in 0..N-1: HIST[i] <- raw` (41_filter R125 (a)). -/
def histFill (raw : Byte) (s : State) : State :=
  { s with hist := List.replicate s.build.n raw }

/-- `HIST[CUR] <- raw` (41_filter R125 (b)). -/
def histStore (raw : Byte) (s : State) : State := { s with hist := s.hist.set s.cur raw }

/-- `CUR <- (CUR + 1) mod N` (41_filter R90). -/
def advanceCursor (s : State) : State := { s with cur := (s.cur + 1) % s.build.n }

/-- The host's levels in this tick; when its list is used up it is quiet: no reset, no command
(log 1). -/
def hostInput (s : State) : HostInput :=
  match s.host with
  | h :: _ => h
  | [] => { rst := false, cmdValid := false, cmdOp := 0, foreign := false }

/-- The tick's host levels have been seen. -/
def takeInput (s : State) : State := { s with host := s.host.tail }

/-- `SEQ <- q` (10_state R17). -/
def goTo (q : Seq) (s : State) : State := { s with seq := q }

/-- The environment fixes the byte `d` as the answer of the transaction in progress. -/
def fixAnswer (d : Byte) (s : State) : State := { s with answer := some d }

/-- Acceptance: `OPREG <- cmd_op; SEQ <- 0` and nothing else (40_acquisition R76). -/
def accept (op : Bit) (s : State) : State := { s with opreg := op, seq := .step 0 }

/-- Reset: every element of the engine's state takes its reset value, whatever it was (70_reset R107,
R108); the build and the environment are no state of the engine (10_state R33, log 13). -/
def resetEngine (s : State) : State :=
  { s with
    csN := 1, clk := 0, din := 1, seq := .idle, opreg := 0, shift := 0, result := 0,
    hist := List.replicate s.build.n 0, cur := 0, init := false, ptmr := 0 }

/-- One tick of a pause: nothing but the pause timer changes (40_acquisition R75). -/
def waitTick (s : State) : State := { s with ptmr := s.ptmr - 1 }

/-- Which constraint of 00_scope R6, R7, R9 a build violates, if any (93 A6, A19). -/
def buildRefusal (b : Build) : Option Refusal :=
  if b.n = 0 then some .illegalCapacity
  else if 2 ^ b.accW ≤ 255 * b.n then some .illegalAccumulator
  else if b.tSettle = 0 then some .illegalSettle
  else none

/-- Take the next state `t` if the build is legal; an illegal build has no meaning. -/
def onLegalBuild (b : Build) (t : State) : Host.Outcome State Fault Refusal :=
  match buildRefusal b with
  | some r => .refused r
  | none => .next t

end Sys2Proof.Machine
end

