-- ==== Sys2Proof/Machine/Flags.lean ====
section
/-! DEFINITION. The derived flags of the engine: `BUSY` and what the ports show of it. There are no
arithmetic flags (spec 10_state R21); `INIT` is a register (R24). -/

namespace Sys2Proof.Machine

/-- `BUSY`: the value `SEQ != IDLE` (10_state R21). -/
def busy (s : State) : Bool :=
  match s.seq with
  | .idle => false
  | .step _ => true

/-- `cmd_ready = NOT BUSY` (10_state R28). -/
def cmdReady (s : State) : Bool := !busy s

/-- A command is accepted in a tick where `cmd_valid = 1`, `cmd_ready = 1` and reset is not asserted
(10_state R28). -/
def commandAccepted (s : State) : Bool :=
  (hostInput s).cmdValid && cmdReady s && !(hostInput s).rst

/-- Anything else is on the lines while the engine owns them, which is while `BUSY = 1` (10_state R21,
60_exceptions R105, 70_reset R113; log 10). -/
def contended (s : State) : Bool := busy s && (hostInput s).foreign

end Sys2Proof.Machine
end

