-- ==== Sys2Proof/Machine/Operands.lean ====
section
/-! DEFINITION. Where operands come from and where they go. The commands have no operand (spec
30_encoding R50); the values an operation takes in are the sampled bits (40_acquisition R71) and the
history entries of the mean (41_filter R87, R89). -/

namespace Sys2Proof.Machine

/-- `SHIFT <- {SHIFT[6:0], PinRead(DOUT)}` at result pulse `k` (40_acquisition R71). -/
def sampleBit (k : Fin 8) (s : State) : State :=
  drawn { s with shift := shiftIn s.shift (pinRead k s) }

/-- `SHIFT <- 0` at the start of a frame (40_acquisition R64); the fall of `CS_N` in the same step
activates the converter. -/
def clearShift (s : State) : State := beginTransaction { s with shift := 0 }

/-- `ACC`: the entries added up in `w` bits (41_filter R87). -/
def accSum (w : Nat) (h : List Byte) : BitVec w :=
  h.foldl (fun acc e => acc + e.zeroExtend w) 0

/-- `(ACC div N)[7:0]`, the truncated mean (41_filter R89). -/
def truncatedMean (b : Build) (h : List Byte) : Byte :=
  BitVec.ofNat 8 ((accSum b.accW h).toNat / b.n)

end Sys2Proof.Machine
end

