-- ==== Sys2Proof/Machine/Control.lean ====
section
/-! DEFINITION. What happens in one tick: the order of the events that can coincide (spec
60_exceptions R98), the instruction in flight, the ports and the debug view. -/

namespace Sys2Proof.Machine

/-- What one tick of the machine is. -/
inductive TickKind where
  /-- the machine has no meaning here -/
  | stop (r : Refusal)
  /-- `rst = 1` -/
  | reset
  /-- the pause after a line write is running -/
  | wait
  /-- idle, and no command is offered -/
  | idle
  /-- an event of the instruction offered or in flight -/
  | run (i : Instr)
  deriving DecidableEq, Repr

/-- The instruction the engine runs next: the one in flight, remembered by `OPREG` (10_state R18), or
the command on the port of an idle engine (30_encoding R50). -/
def currentInstr (s : State) : Option Instr :=
  match s.seq with
  | .step _ => some (decodeCmd s.opreg)
  | .idle => if (hostInput s).cmdValid then some (decodeCmd (hostInput s).cmdOp) else none

/-- The order of the events that can coincide (60_exceptions R98): reset beats everything; the pause
holds the sequencer (70_reset R121); then the instruction offered or in flight. -/
def tickKind (s : State) : TickKind :=
  match buildRefusal s.build with
  | some r => .stop r
  | none =>
    if (hostInput s).rst then .reset
    else if contended s then .stop .linesContended
    else if s.ptmr ≠ 0 then .wait
    else
      match currentInstr s with
      | some i => .run i
      | none => .idle

/-- `rsp_valid`: 1 during the event of step 37 and 0 in every other (10_state R29, log 17). -/
def rspValid (s : State) : Bool :=
  match tickKind s with
  | .run _ => decide (s.seq = .step 37)
  | .stop _ => false
  | .reset => false
  | .wait => false
  | .idle => false

/-- The outputs of the command and response ports (10_state R28, R29). -/
structure PortView where
  cmdReady : Bool
  rspValid : Bool
  rspData : Byte
  deriving DecidableEq, Repr

/-- What the host sees on the ports in this tick. -/
def portView (s : State) : PortView :=
  { cmdReady := cmdReady s, rspValid := rspValid s, rspData := s.result }

/-- The debug view: read-only, without side effect, at any time (60_exceptions R103). -/
structure DebugView where
  dbgInit : Bool
  dbgCur : Nat
  dbgHist : List Byte
  dbgSeq : Seq
  dbgShift : Byte
  lines : Levels
  deriving DecidableEq, Repr

/-- What the debug view shows in this state. -/
def debugView (s : State) : DebugView :=
  { dbgInit := s.init, dbgCur := s.cur, dbgHist := s.hist, dbgSeq := s.seq,
    dbgShift := s.shift, lines := levels s }

/-- The command port in this tick: `cmd_valid = 1`, `cmd_op = op`, no reset, nothing foreign. -/
def offerCommand (op : Bit) : HostInput :=
  { rst := false, cmdValid := true, cmdOp := op, foreign := false }

/-- The host in this tick: nothing offered, no reset, nothing foreign. -/
def quietInput : HostInput := { rst := false, cmdValid := false, cmdOp := 0, foreign := false }

/-- Put the encoded form `c` where the machine takes its next instruction from: a command word on the
command port of an idle engine; a frame on the wire of an engine that has accepted an operation and
starts its frame, its response fixed for this transaction (log 9). -/
def placeCode (c : Code) (s : State) : State :=
  match c with
  | .cmd op =>
    { s with seq := .idle, ptmr := 0, host := offerCommand op :: s.host.tail }
  | .frame slots =>
    { s with
      seq := .step 0, ptmr := 0, host := quietInput :: s.host.tail,
      oracle := assemble (slots.drop 3) :: s.oracle }

/-- Place the table word `w` of `nbits` bits, if the decoder reads an instruction from it. -/
def placeTableWord (nbits w : Nat) (s : State) : State :=
  match codeOfTableWord nbits w with
  | none => s
  | some c =>
    match decode c with
    | .ok _ => placeCode c s
    | .error _ => s

end Sys2Proof.Machine
end

