-- ==== Sys2Proof/Machine/Filter.lean ====
section
/-! DEFINITION. The moving-average filter: step 37 of a FREAD (spec 41_filter R85 to R90), and the
filter as the pure function the spec gives beside it (R88). -/

namespace Sys2Proof.Machine

/-- Cold-start update: fill the history with `raw`, cursor to 0, set `INIT`, return `raw`
(41_filter R86). -/
def coldStart (raw : Byte) (s : State) : State :=
  { histFill raw s with cur := 0, init := true, result := raw }

/-- `ACC` and the mean over the history as it stands (41_filter R87, R89). -/
def setMean (s : State) : State := { s with result := truncatedMean s.build s.hist }

/-- Steady-state update, in the order of 41_filter R87: store at the cursor, advance the cursor, then
the mean of all entries. -/
def steadyState (raw : Byte) (s : State) : State :=
  setMean (advanceCursor (histStore raw s))

/-- Step 37 when `OPREG = 1` (41_filter R85); `SEQ` is moved by the sequencer. -/
def completeFread (s : State) : State :=
  if s.init then steadyState s.shift s else coldStart s.shift s

/-- The filter state `(H, c, f)` of 41_filter R88. -/
structure FilterState where
  h : List Byte
  c : Nat
  f : Bool
  deriving DecidableEq, Repr

/-- The filter registers of the engine. -/
def filterOf (s : State) : FilterState := { h := s.hist, c := s.cur, f := s.init }

/-- The sum of the entries as natural numbers; it never wraps (41_filter R93). -/
def exactSum (h : List Byte) : Nat := (h.map BitVec.toNat).sum

/-- `FilterStep` (41_filter R88), for a capacity of `n` entries: the next filter state and the value
returned. Pure, with exact arithmetic: the reference that `completeFread` is held to. -/
def filterStep (n : Nat) (st : FilterState) (raw : Byte) : FilterState × Nat :=
  if st.f = false then ({ h := List.replicate n raw, c := 0, f := true }, raw.toNat)
  else
    let h' := st.h.set st.c raw
    let c' := if st.c = n - 1 then 0 else st.c + 1
    ({ h := h', c := c', f := true }, exactSum h' / n)

/-- The filter after a sequence of raw samples, oldest first, and the value the last one returned
(`last` if there was none). -/
def filterRun (n : Nat) (st : FilterState) (last : Nat) : List Byte → FilterState × Nat
  | [] => (st, last)
  | r :: rs => filterRun n (filterStep n st r).1 (filterStep n st r).2 rs

end Sys2Proof.Machine
end

