-- ==== Sys2Proof/Machine/Table.lean ====
section
/-! DEFINITION. The fixed step table of one transaction (spec 40_acquisition R63): which kind of step
stands at each position, and the columns of the table for each kind. -/

namespace Sys2Proof.Machine

/-- The kinds of step, under the names of the table's second column (40_acquisition R63); `j` is the
header bit (0 to 2), `k` the result pulse (0 to 7). -/
inductive StepKind where
  | startCs
  | startClk
  | hdrSetup (j : Fin 3)
  | hdrRise (j : Fin 3)
  | hdrFall (j : Fin 3)
  | release
  | rspRise (k : Fin 8)
  | rspSample (k : Fin 8)
  | rspFall (k : Fin 8)
  | endCs
  | complete
  deriving DecidableEq, Repr

/-- Rows 0 to 11: the start, the three header bits, the release of `DIN`. -/
def headerRows : List StepKind :=
  [.startCs, .startClk,
   .hdrSetup 0, .hdrRise 0, .hdrFall 0,
   .hdrSetup 1, .hdrRise 1, .hdrFall 1,
   .hdrSetup 2, .hdrRise 2, .hdrFall 2,
   .release]

/-- Rows 12 to 35: the eight result pulses. -/
def responseRows : List StepKind :=
  [.rspRise 0, .rspSample 0, .rspFall 0, .rspRise 1, .rspSample 1, .rspFall 1,
   .rspRise 2, .rspSample 2, .rspFall 2, .rspRise 3, .rspSample 3, .rspFall 3,
   .rspRise 4, .rspSample 4, .rspFall 4, .rspRise 5, .rspSample 5, .rspFall 5,
   .rspRise 6, .rspSample 6, .rspFall 6, .rspRise 7, .rspSample 7, .rspFall 7]

/-- The 38 rows in order (40_acquisition R63). -/
def stepTable : List StepKind := headerRows ++ responseRows ++ [.endCs, .complete]

/-- The row at a position. -/
def stepKind (k : Fin 38) : StepKind := stepTable.getD k.val .complete

/-- The header bit put on `DIN` at step `2 + 3j`: `HDR[j]` (30_encoding R55). -/
def headerBit (j : Fin 3) : Bit := Config.header.getD j.val 1

/-- The column "write": the one `PinWrite` of a step, if it makes one. -/
def stepWrite : StepKind → Option (Line × Bit)
  | .startCs => some (.csN, 0)
  | .startClk => some (.clk, 0)
  | .hdrSetup j => some (.din, headerBit j)
  | .hdrRise _ => some (.clk, 1)
  | .hdrFall _ => some (.clk, 0)
  | .release => some (.din, 1)
  | .rspRise _ => some (.clk, 1)
  | .rspSample _ => none
  | .rspFall _ => some (.clk, 0)
  | .endCs => some (.csN, 1)
  | .complete => none

/-- The column "pause": whether one `Pause()` follows the step (40_acquisition R75). -/
def stepPause : StepKind → Bool
  | .startCs => true
  | .startClk => true
  | .hdrSetup _ => true
  | .hdrRise _ => true
  | .hdrFall _ => true
  | .release => true
  | .rspRise _ => true
  | .rspSample _ => false
  | .rspFall _ => true
  | .endCs => true
  | .complete => false

/-- The column "levels after" as the table prints it; no step reads it, the statements about the
lines do (40_acquisition R63, R82). -/
def stepLevels : StepKind → Levels
  | .startCs => { csN := 0, clk := 0, din := 1 }
  | .startClk => { csN := 0, clk := 0, din := 1 }
  | .hdrSetup 0 => { csN := 0, clk := 0, din := 1 }
  | .hdrRise 0 => { csN := 0, clk := 1, din := 1 }
  | .hdrFall 0 => { csN := 0, clk := 0, din := 1 }
  | .hdrSetup 1 => { csN := 0, clk := 0, din := 1 }
  | .hdrRise 1 => { csN := 0, clk := 1, din := 1 }
  | .hdrFall 1 => { csN := 0, clk := 0, din := 1 }
  | .hdrSetup 2 => { csN := 0, clk := 0, din := 0 }
  | .hdrRise 2 => { csN := 0, clk := 1, din := 0 }
  | .hdrFall 2 => { csN := 0, clk := 0, din := 0 }
  | .release => { csN := 0, clk := 0, din := 1 }
  | .rspRise _ => { csN := 0, clk := 1, din := 1 }
  | .rspSample _ => { csN := 0, clk := 1, din := 1 }
  | .rspFall _ => { csN := 0, clk := 0, din := 1 }
  | .endCs => { csN := 1, clk := 0, din := 1 }
  | .complete => { csN := 1, clk := 0, din := 1 }

/-- `SEQ` after step `k`: `k + 1`, and `IDLE` after step 37 (10_state R17). -/
def nextSeq (k : Fin 38) : Seq := if k.val = 37 then .idle else .step (k + 1)

/-- Make the write of a step, if it has one. -/
def writeLine (w : Option (Line × Bit)) (s : State) : State :=
  match w with
  | some (l, b) => pinWrite l b s
  | none => s

/-- Start the pause that follows a step; a step with none leaves no pause running (10_state R26,
40_acquisition R75). -/
def startPause (p : Bool) (s : State) : State :=
  { s with ptmr := if p then s.build.tSettle else 0 }

end Sys2Proof.Machine
end

