-- ==== Sys2Proof/Machine/Acquire.lean ====
section
/-! DEFINITION. One event of the sequencer, and the meanings of ACQ and FRAME (spec 40_acquisition,
30_encoding R53). -/

namespace Sys2Proof.Machine

/-- Step 37 when `OPREG = 0`: `RESULT <- SHIFT` (40_acquisition R74); `SEQ` is moved by the
sequencer. -/
def completeAcq (s : State) : State := { s with result := s.shift }

/-- Step 37 (COMPLETE): `OPREG` selects between the raw sample and the filter update (10_state R18,
40_acquisition R74, 41_filter R85). -/
def complete (s : State) : State := if s.opreg = 0 then completeAcq s else completeFread s

/-- The column "other action" of the step table (40_acquisition R63). What the converter latches at
the header rises is the converter's affair (60_exceptions R104). -/
def stepAction : StepKind → State → State
  | .startCs, s => clearShift s
  | .startClk, s => s
  | .hdrSetup _, s => s
  | .hdrRise _, s => s
  | .hdrFall _, s => s
  | .release, s => s
  | .rspRise _, s => s
  | .rspSample k, s => sampleBit k s
  | .rspFall _, s => s
  | .endCs, s => s
  | .complete, s => complete s

/-- The event of step `k`: its action, its line write, the pause after it, and `SEQ` (40_acquisition
R63, 10_state R17). One atomic event (20_memory R40). -/
def seqStep (k : Fin 38) (s : State) : State :=
  goTo (nextSeq k)
    (startPause (stepPause (stepKind k))
      (writeLine (stepWrite (stepKind k)) (stepAction (stepKind k) s)))

/-- The event of the engine in which the command `op` is offered or in flight: an idle engine accepts
it, a busy one performs its next step, for which the offer changes nothing (40_acquisition R76,
60_exceptions R98; log 6). -/
def offer (op : Bit) (s : State) : State :=
  match s.seq with
  | .idle => accept op s
  | .step k => seqStep k s

/-- ACQ (40_acquisition R62): one event of `read_channel_0()`. -/
def execAcq (s : State) : Host.Outcome State Fault Refusal :=
  onLegalBuild s.build (offer 0 s)

/-- The event of step `k` in a frame whose response is `d`: the converter answers the samples of this
transaction with `d` (30_encoding R53; log 7). -/
def frameStep (d : Byte) (k : Fin 38) (s : State) : State :=
  fixAnswer d (seqStep k (fixAnswer d s))

/-- FRAME (30_encoding R53): one event of the wire frame of steps 0 to 36 with the response `d`. When
no frame is in progress it has no meaning: it is no host command (30_encoding R57; log 7). -/
def execFrame (d : Byte) (s : State) : Host.Outcome State Fault Refusal :=
  match s.seq with
  | .idle => .refused .noFrameInProgress
  | .step k =>
    if k.val = 37 then .refused .noFrameInProgress
    else onLegalBuild s.build (frameStep d k s)

end Sys2Proof.Machine
end

