-- ==== Sys2Proof/Machine/Smooth.lean ====
section
/-! DEFINITION. The meaning of FREAD (spec 41_filter R84). -/

namespace Sys2Proof.Machine

/-- FREAD (41_filter R84): one event of `filtered_read()`. It runs the same step table as ACQ with
`OPREG = 1`, and step 37 does the filter update (R85). -/
def execFread (s : State) : Host.Outcome State Fault Refusal :=
  onLegalBuild s.build (offer 1 s)

end Sys2Proof.Machine
end

