-- ==== Sys2Proof/Machine/Dispatch.lean ====
section
/-! DEFINITION. One arm per constructor of Instr: the event of the engine in which that instruction is
offered or in flight. -/

namespace Sys2Proof.Machine

def exec (i : Instr) (s : State) : Host.Outcome State Fault Refusal :=
  match i with
  | .acq => Sys2Proof.Machine.execAcq s
  | .fread => Sys2Proof.Machine.execFread s
  | .frame d => Sys2Proof.Machine.execFrame d s

end Sys2Proof.Machine
end

