-- ==== Sys2Proof/Machine/Step.lean ====
section
/-! DEFINITION. One tick of the machine (spec 70_reset R121), and the placing of an instruction word
where the next step takes it from. -/

namespace Sys2Proof.Machine

/-- One tick: the host's levels are taken, and then the tick is a reset, a pause tick, an idle tick or
one event of the instruction offered or in flight. -/
def step (s : State) : Host.Outcome State Fault Refusal :=
  match tickKind s with
  | .stop r => .refused r
  | .reset => .next (resetEngine (takeInput s))
  | .wait => .next (waitTick (takeInput s))
  | .idle => .next (takeInput s)
  | .run i => exec i (takeInput s)

/-- `s` with the table word `w` of `nbits` bits placed where `step` takes its next instruction; a word
that the decoder refuses places nothing (logs 8, 9). -/
def State.withFetchWord (s : State) (nbits w : Nat) : State := placeTableWord nbits w s

end Sys2Proof.Machine
end

