-- ==== Sys2Proof/Machine/Run.lean ====
section
/-! DEFINITION. Whole operations: a number of events of one instruction, how long an operation is, and
what it leaves (spec 40_acquisition R62, 41_filter R84, 70_reset R120, R121). -/

namespace Sys2Proof.Machine

/-- `m` events of the instruction `i`, stopping at the first fault or refusal. -/
def execRun : Nat → Instr → State → Host.Outcome State Fault Refusal
  | 0, _, s => .next s
  | m + 1, i, s =>
    match exec i s with
    | .next t => execRun m i t
    | .fault f => .fault f
    | .refused r => .refused r

/-- `m` ticks of the machine, stopping at the first fault or refusal: `Host.Core.run` of this machine,
with its state type in plain sight (Laws/Run.lean, `stepRun_eq_run`). -/
def stepRun : Nat → State → Host.Outcome State Fault Refusal
  | 0, s => .next s
  | m + 1, s =>
    match step s with
    | .next t => stepRun m t
    | .fault f => .fault f
    | .refused r => .refused r

/-- The events of one operation: the acceptance and the 38 steps (40_acquisition R63, R76). -/
def operationEvents : Nat := 39

/-- The ticks of one operation: acceptance 1, then `38 + 29 * T_SETTLE` (70_reset R121). -/
def operationTicks (b : Build) : Nat := 1 + (38 + 29 * b.tSettle)

/-- Eight free values of `DOUT` as a sample (00_scope R11). -/
def freeSample (i : Nat) : Byte :=
  assemble [Config.dout i, Config.dout (i + 1), Config.dout (i + 2), Config.dout (i + 3),
    Config.dout (i + 4), Config.dout (i + 5), Config.dout (i + 6), Config.dout (i + 7)]

/-- The raw sample of the next transaction: the byte the environment has fixed for it, else eight free
values (00_scope R11, 40_acquisition R77). -/
def nextSample (s : State) : Byte :=
  match s.oracle with
  | p :: _ => p
  | [] => freeSample s.draws

/-- What a whole frame leaves when it is followed by an idle engine: the lines at their idle levels,
the sample in `SHIFT`, the environment one transaction further. -/
def afterFrame (s : State) : State :=
  { s with
    csN := 1, clk := 0, din := 1, shift := nextSample s, ptmr := 0, seq := .idle,
    answer := s.oracle.head?, oracle := s.oracle.tail,
    draws := if s.oracle.isEmpty then s.draws + 8 else s.draws }

/-- What an ACQ leaves when it is started in the idle state `s` (40_acquisition R62). -/
def acqEffect (s : State) : State :=
  { afterFrame s with opreg := 0, result := nextSample s }

/-- What a FREAD leaves when it is started in the idle state `s` (41_filter R84, R88). -/
def freadEffect (s : State) : State :=
  let f := filterStep s.build.n (filterOf s) (nextSample s)
  { afterFrame s with
    opreg := 1, hist := f.1.h, cur := f.1.c, init := f.1.f, result := BitVec.ofNat 8 f.2 }

end Sys2Proof.Machine
end

