-- ==== Sys2Proof/Machine/Script.lean ====
section
/-! DEFINITION. Scripts: a host that starts each operation on an idle engine and waits for its result
(spec 30_encoding R60, R61; log 16). -/

namespace Sys2Proof.Machine

/-- The instruction of a command. -/
def cmdInstr : Cmd → Instr
  | .acq => .acq
  | .fread => .fread

/-- The command word of a command (30_encoding R50). -/
def cmdWord : Cmd → Bit
  | .acq => 0
  | .fread => 1

/-- A mnemonic or a source-level synonym (30_encoding R60). -/
def commandOfName (name : String) : Option Cmd :=
  if name = "ACQ" then some .acq
  else if name = "read_channel_0()" then some .acq
  else if name = "FREAD" then some .fread
  else if name = "filtered_read()" then some .fread
  else none

/-- A script's encoding: the command words of its operations in program order (30_encoding R60). -/
def encodeScript : List ScriptLine → List Bit
  | [] => []
  | .op c :: rest => cmdWord c :: encodeScript rest
  | .resetDuring c _ :: rest => cmdWord c :: encodeScript rest
  | .comment _ :: rest => encodeScript rest
  | .reset :: rest => encodeScript rest
  | .dev _ :: rest => encodeScript rest
  | .expect _ :: rest => encodeScript rest

/-- How a script ends. -/
inductive ScriptEnd where
  /-- Its last line is done: the state and the results in order. That is the end of 70_reset R122 where
  the last operation reached step 37; of a script that ends otherwise see `runLines`. -/
  | done (s : State) (results : List Byte)
  /-- An `EXPECT` did not hold: the value expected and `RESULT`. -/
  | unmet (expected got : Byte)
  /-- The machine has no meaning at some line. -/
  | stopped (r : Refusal)
  /-- It is no script: nothing of it was run. -/
  | illFormed (e : ScriptError)
  deriving DecidableEq, Repr

/-- Run the lines of a legal script from `s`, with the results so far, latest last. DESIGN CHOICE (log
16): the run ends at the last line with the state it leaves. 70_reset R122 ends a run at the last
operation's step 37 and says nothing of a script whose last operation a reset cuts short, that has
lines after its last operation, or that has no operation. -/
def runLines : List ScriptLine → List Byte → State → ScriptEnd
  | [], results, s => .done s results
  | .op c :: rest, results, s =>
    match execRun operationEvents (cmdInstr c) s with
    | .next t => runLines rest (results ++ [t.result]) t
    | .fault f => nomatch f
    | .refused r => .stopped r
  | .comment _ :: rest, results, s => runLines rest results s
  | .reset :: rest, results, s => runLines rest results (resetEngine s)
  | .resetDuring c k :: rest, results, s =>
    match execRun (1 + k.val) (cmdInstr c) s with
    | .next t => runLines rest results (resetEngine t)
    | .fault f => nomatch f
    | .refused r => .stopped r
  | .dev bytes :: rest, results, s => runLines rest results { s with oracle := bytes }
  | .expect v :: rest, results, s =>
    if s.result = v then runLines rest results s else .unmet v s.result

/-- Run a script from the idle state `s` (30_encoding R60); what is no script is not run. -/
def runScript (ls : List ScriptLine) (s : State) : ScriptEnd :=
  match Script.firstError ls with
  | some e => .illFormed e
  | none => runLines ls [] s

end Sys2Proof.Machine
end

