-- ==== Sys2Proof/Machine/Wire.lean ====
section
/-! DEFINITION. What a converter or a logic analyser sees on the output lines (spec 40_acquisition
R79 to R82, 70_reset R122). -/

namespace Sys2Proof.Machine

/-- The levels on the lines after each of `m` events of the instruction `i`. -/
def lineTrace : Nat → Instr → State → List Levels
  | 0, _, _ => []
  | m + 1, i, s =>
    match exec i s with
    | .next t => levels t :: lineTrace m i t
    | .fault _ => []
    | .refused _ => []

/-- The column "levels after" of the 38 steps (40_acquisition R63). -/
def tableLevels : List Levels := stepTable.map stepLevels

/-- Consecutive pairs of levels, beginning with the levels `l` before the first event. -/
def changes (l : Levels) : List Levels → List (Levels × Levels)
  | [] => []
  | l' :: rest => (l, l') :: changes l' rest

/-- A rise of `CLK`. -/
def clkRises (p : Levels × Levels) : Bool := decide (p.1.clk = 0) && decide (p.2.clk = 1)

/-- A fall of `CLK`. -/
def clkFalls (p : Levels × Levels) : Bool := decide (p.1.clk = 1) && decide (p.2.clk = 0)

/-- The levels of `DIN` that the rises of `CLK` find, in order (40_acquisition R79). -/
def dinAtRises (ls : List Levels) : List Bit :=
  ((changes idleLevels ls).filter clkRises).map fun p => p.2.din

/-- The levels with writes that change nothing dropped, as an observer of the lines sees them
(70_reset R122). -/
def distinctLevels (l : Levels) : List Levels → List Levels
  | [] => []
  | l' :: rest => if l' = l then distinctLevels l rest else l' :: distinctLevels l' rest

end Sys2Proof.Machine
end

