-- ==== Sys2Proof/Safety.lean ====
section
/-! DEFINITION. What a good state of the engine is, in the terms the statements use: the invariants of
spec 10_state R31 and R32 and of the pause timer, and what a completed step is. -/

namespace Sys2Proof.Safety

open Sys2Proof.Machine

/-- `HIST` has exactly `N` entries and `CUR` names one of them (10_state R22, R32 (a)). -/
abbrev histWf (s : State) : Prop := s.hist.length = s.build.n ∧ s.cur < s.build.n

/-- If `INIT = 0` then `CUR = 0` (10_state R32 (b)). -/
abbrev coldCursor (s : State) : Prop := s.init = false → s.cur = 0

/-- The step before position `k`, if there is one. -/
def stepBefore (k : Fin 38) : Option StepKind :=
  if k.val = 0 then none else some (stepKind (k - 1))

/-- The levels the lines have at a position: those after the step before it (40_acquisition R63), and
the idle levels when there is none (10_state R31). -/
def levelsDue : Seq → Levels
  | .idle => idleLevels
  | .step k =>
    match stepBefore k with
    | none => idleLevels
    | some kind => stepLevels kind

/-- The lines are where the step table has them. -/
abbrev linesDue (s : State) : Prop := levels s = levelsDue s.seq

/-- Whether a pause may be running at a position: the step before it is followed by one
(40_acquisition R75). -/
def pauseDue : Seq → Bool
  | .idle => false
  | .step k =>
    match stepBefore k with
    | none => false
    | some kind => stepPause kind

/-- A pause runs only after a line write and lasts at most `T_SETTLE` (10_state R26, 00_scope R9). -/
abbrev pauseWf (s : State) : Prop :=
  s.ptmr ≤ (if pauseDue s.seq then s.build.tSettle else 0)

/-- How many samples the steps before position `k` have taken (40_acquisition R71). -/
def samplesBefore (k : Fin 38) : Nat := (k.val - 11) / 3

/-- Between step 0 and COMPLETE, `SHIFT` holds only the bits sampled in this frame (10_state R19). -/
def shiftDue (s : State) : Bool :=
  match s.seq with
  | .idle => true
  | .step k => k.val = 0 || s.shift.toNat < 2 ^ samplesBefore k

/-- The invariant of the machine: a legal build, a well-formed history, the cursor of a cold filter,
the lines and the pause timer as the sequencer position says, and `SHIFT` a function of this frame. -/
abbrev Inv (s : State) : Prop :=
  s.build.legal = true ∧ histWf s ∧ coldCursor s ∧ linesDue s ∧ pauseWf s ∧ shiftDue s = true

/-- The step goes on: neither a fault nor a refusal. -/
def GoesOn (o : Host.Outcome State Fault Refusal) : Prop := ∃ t, o = .next t

/-- The fields of the engine and of its environment that no instruction writes: the build and the
host's plan (10_state R33). -/
abbrev sameSurroundings (s t : State) : Prop := t.build = s.build ∧ t.host = s.host

/-- The filter state is the same (10_state R32 (e)). -/
abbrev sameFilter (s t : State) : Prop := t.hist = s.hist ∧ t.cur = s.cur ∧ t.init = s.init

/-- Nothing foreign and no reset in any of the next `m` ticks; commands may be offered. -/
def undisturbed (m : Nat) (hs : List HostInput) : Bool :=
  (hs.take m).all fun h => !h.rst && !h.foreign

end Sys2Proof.Safety
end

