-- ==== Sys2Proof/Certificates/Slice0/Obligations.lean ====
section
/-! DEFINITION. The statements for the provers, from the numbered rules of spec/. Each docstring names
the rule it formalises. `i.isHostCommand = true` says that `i` is ACQ or FREAD. -/

open Sys2Proof Sys2Proof.Machine Sys2Proof.Safety

/-! ### Encodings (30_encoding) -/

/-- Decoding an encoded instruction gives it back, for every instruction and every response byte
(30_encoding R50, R53, R57). -/
def Obligations.DecodeOfEncode : Prop := ∀ i : Instr, decode (encode i) = .ok i

/-- Whatever the decoder accepts is the encoding of what it answers: no other pattern is accepted
(30_encoding R53, R58). -/
def Obligations.EncodeOfDecode : Prop := ∀ (c : Code) (i : Instr), decode c = .ok i → encode i = c

/-- The decoder accepts exactly the legal forms; a frame of another length or another header is refused
by name, and no command word is refused (30_encoding R58, R59). -/
def Obligations.DecoderRefusals : Prop :=
  (∀ c : Code, c.wellFormed = true ↔ ∃ i, decode c = .ok i) ∧
  (∀ op : Bit, ∃ i, decode (.cmd op) = .ok i ∧ i.isHostCommand = true) ∧
  (∀ slots : List Bit, slots.length ≠ 11 → decode (.frame slots) = .error .frameLength) ∧
  (∀ slots : List Bit, slots.length = 11 → slots.take 3 ≠ [1, 1, 0] →
    decode (.frame slots) = .error .frameHeader)

/-- Words written out from the spec's encodings decode to what they stand for (30_encoding R50, R53).
The numbering of a table word is the model's: log 8. -/
def Obligations.DecodedWords : Prop :=
  decodeTableWord 8 0 = some .acq ∧ decodeTableWord 8 1 = some .fread ∧
  decodeTableWord 16 0b11011001000 = some (.frame 0xC8) ∧
  decode (.frame [1, 1, 0, 1, 1, 0, 0, 1, 0, 0, 0]) = .ok (.frame 0xC8) ∧
  decode (.frame [0, 1, 1, 1, 1, 0, 0, 1, 0, 0, 0]) = .error .frameHeader

/-- The raw sample weighs the bit of result pulse `k` with `2^(7-k)`, and it is what eight
applications of `SHIFT <- {SHIFT[6:0], d_k}` to `SHIFT = 0` give; it enters a sum with its value 0 to
255 (30_encoding R56). -/
def Obligations.AssembleWeights : Prop :=
  ∀ d0 d1 d2 d3 d4 d5 d6 d7 : Bit,
    (assemble [d0, d1, d2, d3, d4, d5, d6, d7]).toNat =
      d0.toNat * 128 + d1.toNat * 64 + d2.toNat * 32 + d3.toNat * 16 + d4.toNat * 8 +
        d5.toNat * 4 + d6.toNat * 2 + d7.toNat ∧
    assemble [d0, d1, d2, d3, d4, d5, d6, d7] =
      shiftIn (shiftIn (shiftIn (shiftIn (shiftIn (shiftIn (shiftIn (shiftIn 0 d0) d1) d2) d3) d4) d5) d6) d7 ∧
    ∀ h : List Byte, exactSum (assemble [d0, d1, d2, d3, d4, d5, d6, d7] :: h) =
      (assemble [d0, d1, d2, d3, d4, d5, d6, d7]).toNat + exactSum h

/-- `Assemble` is a bijection between the answer sequences and the byte values; the shift-and-insert is
`(2*s + d) mod 256`, and eight of them discard all that `SHIFT` held before (40_acquisition R77,
41_filter R123 (a), 10_state R19). -/
def Obligations.AssembleIsABijection : Prop :=
  (∀ p : Byte, assemble (responseSlots p) = p) ∧
  (∀ ds : List Bit, ds.length = 8 → responseSlots (assemble ds) = ds) ∧
  (∀ (s : Byte) (d : Bit), (shiftIn s d).toNat = (2 * s.toNat + d.toNat) % 256) ∧
  ∀ (s : Byte) (ds : List Bit), ds.length = 8 → ds.foldl shiftIn s = assemble ds

/-! ### The step table (40_acquisition R63) -/

/-- Every step of both operations follows its row of the table: the levels after it, the pause after
it, the next position (40_acquisition R63, R75, 10_state R17). The pause is counted in ticks: log 5. -/
def Obligations.EveryStepFollowsTheTable : Prop :=
  ∀ (i : Instr) (s : State) (k : Fin 38), i.isHostCommand = true → Inv s → s.seq = .step k →
    ∃ t, exec i s = .next t ∧ levels t = stepLevels (stepKind k) ∧
      t.ptmr = (if (stepWrite (stepKind k)).isSome then s.build.tSettle else 0) ∧
      t.seq = (if k = 37 then .idle else .step (k + 1))

/-! ### The steps, one kind at a time (40_acquisition R64 to R76)

The rules' `Pause()` is `ptmr := T_SETTLE`: the counter that 10_state R26 and 00_scope R9 give a model
with ticks (log 5). A step that no pause follows leaves 0 there. -/

/-- Acceptance: an idle engine takes the command, `OPREG <- cmd_op; SEQ <- 0`, and nothing else
changes (40_acquisition R76). That `exec` of a command in an idle state is its acceptance: log 6. -/
def Obligations.AcceptanceStartsTheOperation : Prop :=
  ∀ s : State, s.build.legal = true → s.seq = .idle →
    exec .acq s = .next { s with opreg := 0, seq := .step 0 } ∧
    exec .fread s = .next { s with opreg := 1, seq := .step 0 } ∧
    busy { s with opreg := 0, seq := .step 0 } = true

/-- Step 0: `SHIFT <- 0`, `CS_N <- 0`, pause; `CS_N` falls (40_acquisition R64); the converter is
activated for one transaction, and the environment's next fixed byte, if any, answers it. Step 1: `CLK
<- 0`, pause; the level does not change (R65). The environment's bytes are the model's: log 2. -/
def Obligations.StartStepsSelectTheConverter : Prop :=
  ∀ (i : Instr) (s : State), i.isHostCommand = true → Inv s →
    (s.seq = .step 0 → s.csN = 1 ∧
      exec i s = .next { s with
        shift := 0, csN := 0, ptmr := s.build.tSettle, seq := .step 1,
        answer := s.oracle.head?, oracle := s.oracle.tail }) ∧
    (s.seq = .step 1 → s.clk = 0 ∧
      exec i s = .next { s with clk := 0, ptmr := s.build.tSettle, seq := .step 2 })

/-- Steps 2, 5, 8: `DIN` takes the header bits 1, 1, 0, `CLK` is low throughout, and only step 8
changes the level (40_acquisition R66, 30_encoding R51). -/
def Obligations.HeaderSetupDrivesDin : Prop :=
  ∀ (i : Instr) (s : State), i.isHostCommand = true → Inv s →
    (s.seq = .step 2 → s.clk = 0 ∧ s.din = 1 ∧
      exec i s = .next { s with din := 1, ptmr := s.build.tSettle, seq := .step 3 }) ∧
    (s.seq = .step 5 → s.clk = 0 ∧ s.din = 1 ∧
      exec i s = .next { s with din := 1, ptmr := s.build.tSettle, seq := .step 6 }) ∧
    (s.seq = .step 8 → s.clk = 0 ∧ s.din = 1 ∧
      exec i s = .next { s with din := 0, ptmr := s.build.tSettle, seq := .step 9 })

/-- Steps 3, 6, 9: `CLK` rises while `DIN` holds the header bit set one step earlier; the engine reads
nothing (40_acquisition R67). -/
def Obligations.HeaderRiseLatchesTheBit : Prop :=
  ∀ (i : Instr) (s : State), i.isHostCommand = true → Inv s →
    (s.seq = .step 3 → s.clk = 0 ∧ s.din = 1 ∧
      exec i s = .next { s with clk := 1, ptmr := s.build.tSettle, seq := .step 4 }) ∧
    (s.seq = .step 6 → s.clk = 0 ∧ s.din = 1 ∧
      exec i s = .next { s with clk := 1, ptmr := s.build.tSettle, seq := .step 7 }) ∧
    (s.seq = .step 9 → s.clk = 0 ∧ s.din = 0 ∧
      exec i s = .next { s with clk := 1, ptmr := s.build.tSettle, seq := .step 10 })

/-- Steps 4, 7, 10: `CLK` falls, `DIN` is not touched (40_acquisition R68). Step 11: `DIN` is released
to 1 while `CLK` is low (R69). -/
def Obligations.HeaderFallAndRelease : Prop :=
  ∀ (i : Instr) (s : State), i.isHostCommand = true → Inv s →
    (∀ k : Fin 38, k = 4 ∨ k = 7 ∨ k = 10 → s.seq = .step k → s.clk = 1 ∧
      exec i s = .next { s with clk := 0, ptmr := s.build.tSettle, seq := .step (k + 1) }) ∧
    (s.seq = .step 11 → s.clk = 0 ∧ s.din = 0 ∧
      exec i s = .next { s with din := 1, ptmr := s.build.tSettle, seq := .step 12 })

/-- Steps `12+3k`: `CLK` rises, `DIN = 1` (40_acquisition R70). -/
def Obligations.ResponseRise : Prop :=
  ∀ (i : Instr) (s : State) (k : Fin 8) (q : Fin 38), i.isHostCommand = true → Inv s →
    q.val = 12 + 3 * k.val → s.seq = .step q →
    s.clk = 0 ∧ s.din = 1 ∧
    exec i s = .next { s with clk := 1, ptmr := s.build.tSettle, seq := .step (q + 1) }

/-- Steps `13+3k`: one read of `DOUT` while `CLK = 1`, shifted into `SHIFT`; no line is written and no
pause follows (40_acquisition R71). The bit is the one the environment has fixed for this transaction,
or a free value. The free value and the fixed byte are the model's form of the oracle: log 2. -/
def Obligations.ResponseSample : Prop :=
  ∀ (i : Instr) (s : State) (k : Fin 8) (q : Fin 38), i.isHostCommand = true → Inv s →
    q.val = 13 + 3 * k.val → s.seq = .step q →
    s.clk = 1 ∧
    (∀ p : Byte, s.answer = some p →
      exec i s = .next { s with
        shift := s.shift.extractLsb' 0 7 ++ p.extractLsb' (7 - k.val) 1, ptmr := 0,
        seq := .step (q + 1) }) ∧
    (s.answer = none →
      exec i s = .next { s with
        shift := s.shift.extractLsb' 0 7 ++ Config.dout s.draws, ptmr := 0,
        seq := .step (q + 1), draws := s.draws + 1 })

/-- Steps `14+3k`: `CLK` falls; after step 35 it stays 0 (40_acquisition R72). -/
def Obligations.ResponseFall : Prop :=
  (∀ (i : Instr) (s : State) (k : Fin 8) (q : Fin 38), i.isHostCommand = true → Inv s →
    q.val = 14 + 3 * k.val → s.seq = .step q →
    s.clk = 1 ∧
    exec i s = .next { s with clk := 0, ptmr := s.build.tSettle, seq := .step (q + 1) }) ∧
  ∀ s : State, Inv s → s.seq = .step 36 ∨ s.seq = .step 37 ∨ s.seq = .idle → s.clk = 0

/-- Step 36: `CS_N` rises, in every transaction, whatever was sampled (40_acquisition R73). -/
def Obligations.EndCsDeselects : Prop :=
  ∀ (i : Instr) (s : State), i.isHostCommand = true → Inv s → s.seq = .step 36 →
    s.csN = 0 ∧
    exec i s = .next { s with csN := 1, ptmr := s.build.tSettle, seq := .step 37 }

/-- Step 37 of an ACQ: `RESULT <- SHIFT; SEQ <- IDLE`, `rsp_valid = 1` during this event, no line is
written and the lines are already idle (40_acquisition R74). -/
def Obligations.CompleteAcqReturnsTheSample : Prop :=
  ∀ s : State, Inv s → s.seq = .step 37 → s.opreg = 0 →
    exec .acq s = .next { s with result := s.shift, seq := .idle, ptmr := 0 } ∧
    levels s = { csN := 1, clk := 0, din := 1 } ∧
    ((hostInput s).rst = false → (hostInput s).foreign = false → s.ptmr = 0 →
      rspValid s = true)

/-- Step 37 of the first FREAD: every entry, the cursor, the flag and the result, whatever `HIST` and
`CUR` held; the mean of the entries is then the raw sample (41_filter R86). -/
def Obligations.CompleteFreadColdStart : Prop :=
  ∀ s : State, s.build.legal = true → s.seq = .step 37 → s.opreg = 1 → s.init = false →
    exec .fread s = .next { s with
      hist := List.replicate s.build.n s.shift, cur := 0, init := true, result := s.shift,
      seq := .idle, ptmr := 0 } ∧
    exactSum (List.replicate s.build.n s.shift) / s.build.n = s.shift.toNat

/-- Step 37 of every later FREAD: store at the cursor as it was, advance, and the truncated mean of the
entries after the store (41_filter R87). -/
def Obligations.CompleteFreadSteadyState : Prop :=
  ∀ s : State, s.build.legal = true → histWf s → s.seq = .step 37 → s.opreg = 1 → s.init = true →
    exec .fread s = .next { s with
      hist := s.hist.set s.cur s.shift, cur := (s.cur + 1) % s.build.n,
      result := BitVec.ofNat 8 (exactSum (s.hist.set s.cur s.shift) / s.build.n),
      seq := .idle, ptmr := 0 }

/-- Step 37 of a FREAD is `FilterStep` on `((HIST, CUR, INIT), SHIFT)`, with exact arithmetic
(41_filter R88). -/
def Obligations.FreadIsFilterStep : Prop :=
  ∀ s : State, s.build.legal = true → histWf s → s.seq = .step 37 → s.opreg = 1 →
    ∃ t, exec .fread s = .next t ∧
      filterOf t = (filterStep s.build.n (filterOf s) s.shift).1 ∧
      t.result.toNat = (filterStep s.build.n (filterOf s) s.shift).2

/-! ### The filter (41_filter R88 to R93) -/

/-- The sum of `N` entries fits `ACC_W` bits: no wrap, whatever the entries, in whatever order they are
added; a build whose accumulator has 16 bits has `N <= 257` (41_filter R93). -/
def Obligations.SumNeverOverflows : Prop :=
  ∀ (b : Build) (h : List Byte), b.legal = true → h.length = b.n →
    exactSum h ≤ 255 * b.n ∧ 255 * b.n < 2 ^ b.accW ∧ (accSum b.accW h).toNat = exactSum h ∧
    (∀ h' : List Byte, h'.Perm h → accSum b.accW h' = accSum b.accW h) ∧
    (b.accW = 16 → b.n ≤ 257)

/-- The mean is the floor of the exact quotient, between the least and the greatest entry, fits eight
bits, is independent of `ACC_W`, and is a right shift when `N` is a power of two (41_filter R89,
00_scope R7). -/
def Obligations.MeanIsTruncatedAndBounded : Prop :=
  ∀ (b : Build) (h : List Byte), b.legal = true → h.length = b.n →
    b.n ≠ 0 ∧
    (truncatedMean b h).toNat = exactSum h / b.n ∧
    exactSum h / b.n ≤ 255 ∧
    (∀ lo hi : Byte, (∀ e ∈ h, lo ≤ e ∧ e ≤ hi) →
      lo ≤ truncatedMean b h ∧ truncatedMean b h ≤ hi) ∧
    ∀ m : Nat, b.n = 2 ^ m → (truncatedMean b h).toNat = exactSum h >>> m

/-- The cursor counts modulo `N`, never modulo `2^CUR_W`, and fits `CUR_W` bits (41_filter R90,
00_scope R8). -/
def Obligations.CursorCountsModuloN : Prop :=
  ∀ s : State, histWf s →
    (advanceCursor s).cur = (if s.cur = s.build.n - 1 then 0 else s.cur + 1) ∧
    (advanceCursor s).cur < s.build.n ∧
    s.cur < 2 ^ Config.curW s.build

/-- Ring overwrite: after exactly `N` steady-state updates from `CUR = 0`, slot `i` holds the `i`-th
sample and the cursor is 0 again (41_filter R90). -/
def Obligations.RingOverwrite : Prop :=
  ∀ (n v : Nat) (h rs : List Byte), 1 ≤ n → h.length = n → rs.length = n →
    (filterRun n { h := h, c := 0, f := true } v rs).1 = { h := rs, c := 0, f := true }

/-- The `m`-th steady-state update writes entry `(m - 1) mod N` (41_filter R91). -/
def Obligations.WhichEntryIsReplaced : Prop :=
  ∀ (n c v : Nat) (h rs : List Byte) (r0 x : Byte), 1 ≤ n →
    (filterRun n { h := h, c := c, f := false } v (r0 :: rs)).1.c = rs.length % n ∧
    (filterRun n { h := h, c := c, f := false } v (r0 :: (rs ++ [x]))).1.h =
      (filterRun n { h := h, c := c, f := false } v (r0 :: rs)).1.h.set (rs.length % n) x

/-- The window: FREAD 0 returns its raw sample; FREAD `t >= 1` returns the floor of the mean of the
`min(t, N)` newest samples and `N - t` copies of the cold-start sample, from any filter state with
`INIT = 0`; with a constant raw value every FREAD returns exactly it (41_filter R92). -/
def Obligations.WindowOfTheMean : Prop :=
  ∀ (n c v : Nat) (h : List Byte) (r0 : Byte), 1 ≤ n →
    (filterRun n { h := h, c := c, f := false } v [r0]).2 = r0.toNat ∧
    (∀ rs : List Byte, rs ≠ [] →
      (filterRun n { h := h, c := c, f := false } v (r0 :: rs)).2 =
        (exactSum (rs.reverse.take n) + (n - rs.length) * r0.toNat) / n) ∧
    ∀ m : Nat,
      (filterRun n { h := h, c := c, f := false } v (List.replicate (m + 1) r0)).2 = r0.toNat

/-- Once initialized, the buffer holds exactly `N` entries, all of them raw samples since the cold
start, and the cursor names one of them (10_state R32 (a), (c)). -/
def Obligations.HistoryHoldsOnlySamples : Prop :=
  ∀ (n c v : Nat) (h rs : List Byte) (r0 : Byte), 1 ≤ n →
    (filterRun n { h := h, c := c, f := false } v (r0 :: rs)).1.f = true ∧
    (filterRun n { h := h, c := c, f := false } v (r0 :: rs)).1.h.length = n ∧
    (filterRun n { h := h, c := c, f := false } v (r0 :: rs)).1.c < n ∧
    ∀ e ∈ (filterRun n { h := h, c := c, f := false } v (r0 :: rs)).1.h, e ∈ r0 :: rs

/-! ### FRAME (30_encoding R53) -/

/-- Every step of a frame follows its row of the table, with the response `d` sampled most significant
bit first (30_encoding R52, R53; FRAME as an instruction: log 7). -/
def Obligations.FrameEventFollowsTheTable : Prop :=
  ∀ (d : Byte) (s : State) (k : Fin 38), Inv s → s.seq = .step k → k ≠ 37 →
    ∃ t, exec (.frame d) s = .next t ∧ t.seq = .step (k + 1) ∧
      levels t = stepLevels (stepKind k) ∧
      t.ptmr = (if stepPause (stepKind k) then s.build.tSettle else 0) ∧
      (k = 0 → t.shift = 0) ∧
      (∀ j : Fin 8, k.val = 13 + 3 * j.val →
        t.shift = s.shift.extractLsb' 0 7 ++ d.extractLsb' (7 - j.val) 1) ∧
      ((k ≠ 0 ∧ ∀ j : Fin 8, k.val ≠ 13 + 3 * j.val) → t.shift = s.shift)

/-- FRAME is no host command: where no frame is in progress it stops by name (30_encoding R57; the
model's choice of a refusal: log 7). -/
def Obligations.FrameStopsOutsideAFrame : Prop :=
  ∀ (d : Byte) (s : State), s.seq = .idle ∨ s.seq = .step 37 →
    exec (.frame d) s = .refused .noFrameInProgress

/-- Both operations emit the frame of the answers they get: event by event, ACQ and FREAD do what
FRAME does (30_encoding R53, 40_acquisition R82). FRAME as an instruction: log 7. -/
def Obligations.FrameIsEmittedByBothOperations : Prop :=
  ∀ (d : Byte) (s : State) (k : Fin 38), s.seq = .step k → k ≠ 37 →
    (if k = 0 then s.oracle.head? = some d else s.answer = some d) →
    exec .acq s = exec (.frame d) s ∧ exec .fread s = exec (.frame d) s

/-- A whole frame with the response `d`, from step 0: 37 events that end with the lines idle and `d`
in `SHIFT` (30_encoding R53, 40_acquisition R77). FRAME as an instruction: log 7; the fixed bytes: log
2. -/
def Obligations.FrameCompletes : Prop :=
  ∀ (d : Byte) (s : State), s.build.legal = true → s.seq = .step 0 →
    execRun 37 (.frame d) s = .next { s with
      csN := 1, clk := 0, din := 1, shift := d, seq := .step 37, ptmr := s.build.tSettle,
      answer := some d, oracle := s.oracle.tail }

/-! ### Whole operations (40_acquisition R62, 41_filter R84) -/

/-- ACQ from any idle state: 39 events end with the lines idle and the assembled sample in `RESULT`;
the filter is untouched (40_acquisition R62, R77, R78). An operation is 39 events: log 6; its sample:
log 2. -/
def Obligations.AcqCompletes : Prop :=
  ∀ s : State, s.build.legal = true → s.seq = .idle →
    execRun operationEvents .acq s = .next (acqEffect s)

/-- FREAD from any idle state: 39 events end with the lines idle and `FilterStep` of the sample in the
filter and in `RESULT` (41_filter R84, R88). An operation is 39 events: log 6; its sample: log 2. -/
def Obligations.FreadCompletes : Prop :=
  ∀ s : State, s.build.legal = true → histWf s → s.seq = .idle →
    execRun operationEvents .fread s = .next (freadEffect s)

/-- The levels on the lines during an operation: those of acceptance and of the step table, the same
for both operations and whatever is sampled (40_acquisition R63, R82). The converter finds 1, 1, 0 and
then 1 eight times at the eleven rises of `CLK` (R79), and an observer sees 26 transitions (95 section
2.2). An operation is 39 events: log 6. -/
def Obligations.OperationLineTrace : Prop :=
  ∀ (i : Instr) (s : State), i.isHostCommand = true → s.build.legal = true → s.seq = .idle →
    levels s = idleLevels →
    lineTrace operationEvents i s = idleLevels :: tableLevels ∧
    dinAtRises (lineTrace operationEvents i s) = [1, 1, 0, 1, 1, 1, 1, 1, 1, 1, 1] ∧
    (distinctLevels (levels s) (lineTrace operationEvents i s)).length = 26

/-- In ticks, acceptance 1 and then `38 + 29 * T_SETTLE`: an offered command has completed after
exactly that many steps of the machine, whatever commands are offered meanwhile (70_reset R121, R112).
The tick is the model's choice: log 5. -/
def Obligations.OperationTakesItsTicks : Prop :=
  ∀ (s : State) (h : HostInput) (hs : List HostInput),
    s.build.legal = true → histWf s → s.seq = .idle → s.ptmr = 0 →
    s.host = h :: hs → h.cmdValid = true →
    undisturbed (operationTicks s.build) s.host = true →
    stepRun (operationTicks s.build) s =
      .next (if h.cmdOp = 0
        then { acqEffect s with host := s.host.drop (operationTicks s.build) }
        else { freadEffect s with host := s.host.drop (operationTicks s.build) })

/-- Counts per transaction, of every operation from an idle engine: `chg` is the levels before and after
each of its 38 steps (40_acquisition R80). -/
def Obligations.TransactionCounts : Prop :=
  ∀ (i : Instr) (s : State), i.isHostCommand = true → s.build.legal = true → s.seq = .idle →
    levels s = idleLevels →
    let chg := changes idleLevels ((lineTrace operationEvents i s).drop 1)
    chg.length = 38 ∧
    (stepTable.filter fun r => (stepWrite r).isSome).length = 29 ∧
    (chg.filter fun p => decide (p.1 ≠ p.2)).length = 26 ∧
    (∀ k : Fin 38, (stepWrite (stepKind k)).isSome = true →
      (chg[k.val]?.map (fun p => decide (p.1 = p.2)) = some true ↔ k = 1 ∨ k = 2 ∨ k = 5)) ∧
    (chg.filter clkRises).length = 11 ∧ (chg.filter clkFalls).length = 11 ∧
    (chg.filter fun p => decide (p.1.csN = 1 ∧ p.2.csN = 0)).length = 1 ∧
    (chg.filter fun p => decide (p.1.csN = 0 ∧ p.2.csN = 1)).length = 1 ∧
    (∀ k : Fin 38, (chg[k.val]?.map (fun p => (p.1.din, p.2.din)) = some (1, 0) ↔ k = 8) ∧
      (chg[k.val]?.map (fun p => (p.1.din, p.2.din)) = some (0, 1) ↔ k = 11)) ∧
    (stepTable.filter fun r => match r with | .rspSample _ => true | _ => false).length = 8 ∧
    (stepTable.filter stepPause).length = 29

/-- A script of ACQs and FREADs in any order, its transactions answered by the bytes of one DEV line,
runs to its end with the lines idle: every operation gives one result, an ACQ its own byte, a FREAD
the filter's value over the bytes of the FREADs alone; the ACQs leave no trace in the filter
(30_encoding R60, R61, 41_filter R92, 40_acquisition R78; the run of a script: log 16). -/
def Obligations.ScriptFeedsTheFilter : Prop :=
  ∀ (ops : List (Cmd × Byte)) (c : Cmd) (r : Byte) (s : State) (v : Nat),
    s.build.legal = true → histWf s → s.seq = .idle →
    let all := ops ++ [(c, r)]
    let samples := (all.filter fun o => decide (o.1 = .fread)).map Prod.snd
    ∃ t results,
      runScript (.dev (all.map Prod.snd) :: all.map fun o => .op o.1) s = .done t results ∧
      t.seq = .idle ∧ levels t = idleLevels ∧
      results.length = all.length ∧ results.getLast? = some t.result ∧
      filterOf t = (filterRun s.build.n (filterOf s) v samples).1 ∧
      (c = .acq → t.result = r) ∧
      (c = .fread → t.result.toNat = (filterRun s.build.n (filterOf s) v samples).2)

/-- A DEV line gives a byte to every transaction up to the next one, and EXPECT speaks of the operation
on the line before (30_encoding R61). Operations under one DEV line make a script exactly when the
list is not overrun, and an overrun script is not run; a second EXPECT in a row makes none; a script
that begins with DEV runs to its end or to an EXPECT that is not met, with no free bit drawn. The run
of a script is the model's reading: log 16. -/
def Obligations.DevAnswersEverySample : Prop :=
  (∀ (bytes : List Byte) (cs : List Cmd), bytes ≠ [] →
    (Script.wellFormed (.dev bytes :: cs.map .op) = true ↔ cs.length ≤ bytes.length)) ∧
  (∀ (bytes : List Byte) (cs : List Cmd) (s : State), bytes ≠ [] → bytes.length < cs.length →
    runScript (.dev bytes :: cs.map .op) s = .illFormed .devUsedUp) ∧
  (∀ (ls : List ScriptLine) (v w : Byte),
    Script.wellFormed (ls ++ [.expect v, .expect w]) = false) ∧
  ∀ (bytes : List Byte) (ls : List ScriptLine) (s : State),
    s.build.legal = true → histWf s → s.seq = .idle →
    Script.wellFormed (.dev bytes :: ls) = true →
    (∃ t results, runScript (.dev bytes :: ls) s = .done t results ∧
      t.seq = .idle ∧ t.draws = s.draws) ∨
    ∃ expected got, runScript (.dev bytes :: ls) s = .unmet expected got

/-! ### Frames: what an instruction leaves unchanged -/

/-- ACQ leaves the filter, the build and the host's plan alone in every event; `RESULT` changes only at
step 37, `OPREG` only at acceptance, the lines and `SHIFT` not at acceptance (40_acquisition R78, R76;
10_state R18, R20). -/
def Obligations.AcqFrame : Prop :=
  ∀ s t : State, s.seq = .idle ∨ s.opreg = 0 → exec .acq s = .next t →
    sameFilter s t ∧ (∀ a : Nat, histRead t a = histRead s a) ∧ sameSurroundings s t ∧
    (s.seq ≠ .step 37 → t.result = s.result) ∧
    (s.seq ≠ .idle → t.opreg = s.opreg) ∧
    (s.seq = .idle → levels t = levels s ∧ t.shift = s.shift)

/-- FREAD leaves the filter alone in every event but step 37, and there a steady-state update leaves
every entry but the one at the cursor alone (10_state R32 (e), 41_filter R87). -/
def Obligations.FreadFrame : Prop :=
  ∀ s t : State, s.seq = .idle ∨ s.opreg = 1 → exec .fread s = .next t →
    sameSurroundings s t ∧
    (s.seq ≠ .step 37 → sameFilter s t ∧ (∀ a : Nat, histRead t a = histRead s a) ∧
      t.result = s.result) ∧
    (s.seq = .step 37 → s.init = true → ∀ a : Nat, a ≠ s.cur → histRead t a = histRead s a) ∧
    (s.seq = .step 37 → levels t = levels s ∧ t.shift = s.shift) ∧
    (s.seq ≠ .idle → t.opreg = s.opreg) ∧
    (s.seq = .idle → levels t = levels s ∧ t.shift = s.shift)

/-- FRAME touches nothing but the lines, the position, `SHIFT` and the pause timer of the engine
(30_encoding R53). FRAME as an instruction: log 7. -/
def Obligations.FrameFrame : Prop :=
  ∀ (d : Byte) (s t : State), exec (.frame d) s = .next t →
    sameFilter s t ∧ (∀ a : Nat, histRead t a = histRead s a) ∧ sameSurroundings s t ∧
    t.opreg = s.opreg ∧ t.result = s.result ∧ t.draws = s.draws

/-! ### One tick of the machine -/

/-- When nothing stops or resets the machine and no pause is running, a step is one event of the
decoded instruction, the one offered to an idle engine or the one in flight, on the state whose host
levels have been taken (60_exceptions R98; the tick: log 5). -/
def Obligations.StepRunsTheDecodedInstruction : Prop :=
  ∀ s : State, s.build.legal = true → (hostInput s).rst = false → contended s = false → s.ptmr = 0 →
    (s.seq = .idle → (hostInput s).cmdValid = true →
      ∀ i, decode (.cmd (hostInput s).cmdOp) = .ok i → step s = exec i (takeInput s)) ∧
    (∀ k i, s.seq = .step k → decode (.cmd s.opreg) = .ok i → step s = exec i (takeInput s)) ∧
    (s.seq = .idle → (hostInput s).cmdValid = false → step s = .next (takeInput s))

/-- A placed word is what the next step runs, from every state of a legal build (logs 8, 9). -/
def Obligations.PlacedWordRunsNext : Prop :=
  ∀ s : State, s.build.legal = true →
    step (s.withFetchWord 8 0) = exec .acq (takeInput (s.withFetchWord 8 0)) ∧
    step (s.withFetchWord 8 1) = exec .fread (takeInput (s.withFetchWord 8 1)) ∧
    ∀ d : Byte, step (s.withFetchWord 16 (0b110 * 256 + d.toNat)) =
      exec (.frame d) (takeInput (s.withFetchWord 16 (0b110 * 256 + d.toNat)))

/-- While `rst = 1` all state takes its reset value, whatever it was, no command is accepted, no step
is performed, `rsp_valid` is not raised; afterwards the engine is idle and ready (70_reset R108). The
tick and what a reset leaves alone outside the engine are the model's: logs 1, 13. -/
def Obligations.ResetBeatsEverything : Prop :=
  ∀ s : State, s.build.legal = true → (hostInput s).rst = true →
    commandAccepted s = false ∧ rspValid s = false ∧
    step s = .next { s with
      csN := 1, clk := 0, din := 1, seq := .idle, opreg := 0, shift := 0, result := 0,
      hist := List.replicate s.build.n 0, cur := 0, init := false, ptmr := 0,
      host := s.host.tail } ∧
    ∀ t, step s = .next t → cmdReady t = true

/-- The reset values, of the default build and of every other (70_reset R107). -/
def Obligations.ResetValues : Prop :=
  State.reset = State.powerOn Config.reference ∧ Config.reference.n = 8 ∧
  ∀ b : Build,
    (State.powerOn b).csN = 1 ∧ (State.powerOn b).clk = 0 ∧ (State.powerOn b).din = 1 ∧
    (State.powerOn b).seq = .idle ∧ (State.powerOn b).opreg = 0 ∧ (State.powerOn b).shift = 0 ∧
    (State.powerOn b).result = 0 ∧ (State.powerOn b).hist.length = b.n ∧
    (∀ a : Nat, a < b.n → histRead (State.powerOn b) a = some 0) ∧
    (State.powerOn b).cur = 0 ∧ (State.powerOn b).init = false ∧ (State.powerOn b).ptmr = 0 ∧
    busy (State.powerOn b) = false ∧ cmdReady (State.powerOn b) = true ∧
    rspValid (State.powerOn b) = false

/-- A pause tick changes no state and no line; only the pause timer counts (40_acquisition R75,
10_state R26; the tick: log 5). -/
def Obligations.PauseChangesNothing : Prop :=
  ∀ s : State, s.build.legal = true → (hostInput s).rst = false → contended s = false →
    s.ptmr ≠ 0 →
    step s = .next { s with ptmr := s.ptmr - 1, host := s.host.tail } ∧ rspValid s = false

/-- A command offered while busy changes nothing: it is not accepted and not remembered (60_exceptions
R98 (b), 40_acquisition R76). The host's list is the model's: log 1. -/
def Obligations.OfferWhileBusyChangesNothing : Prop :=
  ∀ (s : State) (h : HostInput) (hs : List HostInput) (v : Bool) (op : Bit),
    busy s = true → s.host = h :: hs →
    commandAccepted s = false ∧
    step { s with host := { h with cmdValid := v, cmdOp := op } :: hs } = step s

/-- A command held through step 37 is not accepted in that event and is accepted in the next
(60_exceptions R98 (c)). The tick and the host's list are the model's: logs 1, 5. -/
def Obligations.CommandDuringCompletionWaits : Prop :=
  ∀ (s : State) (h h' : HostInput) (hs : List HostInput),
    Inv s → s.seq = .step 37 → s.ptmr = 0 → s.host = h :: h' :: hs →
    h.rst = false → h.foreign = false → h.cmdValid = true → h'.rst = false → h'.cmdValid = true →
    rspValid s = true ∧ commandAccepted s = false ∧
    ∃ t, step s = .next t ∧ t.seq = .idle ∧ t.opreg = s.opreg ∧ commandAccepted t = true ∧
      step t = .next { t with opreg := h'.cmdOp, seq := .step 0, host := hs }

/-- The port signals: `BUSY` is `SEQ != IDLE`, `cmd_ready` is its negation, a command is accepted only
by an idle engine, and `rsp_valid` is 1 exactly in the tick that performs step 37 (10_state R21, R28,
R29). The tick as the moment: log 17. -/
def Obligations.PortSignals : Prop :=
  ∀ s : State,
    (busy s = true ↔ s.seq ≠ .idle) ∧ (portView s).cmdReady = !busy s ∧
    (portView s).rspData = s.result ∧
    (commandAccepted s = true → s.seq = .idle) ∧
    ((portView s).rspValid = true ↔
      s.build.legal = true ∧ (hostInput s).rst = false ∧ (hostInput s).foreign = false ∧
        s.ptmr = 0 ∧ s.seq = .step 37)

/-- When the machine has no meaning: exactly an illegal build, or a foreign driver on the lines of a
busy engine without reset (00_scope R6, R7, R9, 70_reset R113, 10_state R21, 60_exceptions R105; the
refusals: logs 10, 15). -/
def Obligations.WhenTheMachineStops : Prop :=
  ∀ s : State,
    ((∃ r, step s = .refused r) ↔
      s.build.legal = false ∨
        ((hostInput s).rst = false ∧ (hostInput s).foreign = true ∧ s.seq ≠ .idle)) ∧
    (s.build.n = 0 → step s = .refused .illegalCapacity) ∧
    (s.build.n ≠ 0 → 2 ^ s.build.accW ≤ 255 * s.build.n →
      step s = .refused .illegalAccumulator) ∧
    (s.build.n ≠ 0 → 255 * s.build.n < 2 ^ s.build.accW → s.build.tSettle = 0 →
      step s = .refused .illegalSettle) ∧
    (s.build.legal = true → (hostInput s).rst = false → (hostInput s).foreign = true →
      busy s = true → step s = .refused .linesContended)

/-! ### Rules of the whole machine -/

/-- Every step keeps the invariant (10_state R31, R32, R19, R26). The pause timer's clause is the
model's: log 5. -/
def Obligations.InvariantKept : Prop := ∀ s t : State, Inv s → step s = .next t → Inv t

/-- The invariant holds after reset, in the default build and in every legal one (70_reset R107). -/
def Obligations.InvariantAtReset : Prop :=
  Inv State.reset ∧ ∀ b : Build, b.legal = true → Inv (State.powerOn b)

/-- On every run from a good state, whenever the engine is idle the lines are `CS_N = 1`, `CLK = 0`,
`DIN = 1`; so the write of step 1 never changes `CLK` and the write of step 2 never changes `DIN`
(10_state R31). -/
def Obligations.IdleLinesOnEveryRun : Prop :=
  ∀ (m : Nat) (s t : State), Inv s → stepRun m s = .next t →
    (t.seq = .idle → t.csN = 1 ∧ t.clk = 0 ∧ t.din = 1) ∧
    (t.seq = .step 1 → t.clk = 0) ∧ (t.seq = .step 2 → t.din = 1)

/-- The machine is never stuck: with nothing foreign on the lines every good state has a next one; no
step waits on the converter or on the host, and none faults (70_reset R122, 60_exceptions R94). -/
def Obligations.NeverStuck : Prop :=
  ∀ s : State, s.build.legal = true → (hostInput s).foreign = false → GoesOn (step s)

/-- The sequencer moves in no other way than these: it stays, IDLE to 0 at acceptance, `s` to `s + 1`, 37
to IDLE, and to IDLE by reset (10_state R17, 41_filter R124). -/
def Obligations.SequencerMoves : Prop :=
  ∀ s t : State, step s = .next t →
    (t.seq = s.seq ∧ (s.seq ≠ .idle → s.ptmr ≠ 0)) ∨
    (s.seq = .idle ∧ t.seq = .step 0 ∧ commandAccepted s = true ∧ t.opreg = (hostInput s).cmdOp) ∨
    (∃ k : Fin 38, k ≠ 37 ∧ s.seq = .step k ∧ t.seq = .step (k + 1)) ∨
    (s.seq = .step 37 ∧ t.seq = .idle) ∨
    ((hostInput s).rst = true ∧ t.seq = .idle)

/-- The filter changes only at step 37 of a FREAD and at reset; `INIT` is cleared by reset alone;
`RESULT` changes only at step 37 and at reset; the build never changes (10_state R20, R24, R32 (d) and
(e), R33). The host's list is the model's: log 1. -/
def Obligations.WhatChangesTheFilter : Prop :=
  ∀ s t : State, step s = .next t →
    (sameFilter s t ∨ (hostInput s).rst = true ∨ (s.seq = .step 37 ∧ s.opreg ≠ 0 ∧ s.ptmr = 0)) ∧
    (s.init = true → t.init = false → (hostInput s).rst = true) ∧
    (t.result = s.result ∨ (hostInput s).rst = true ∨ (s.seq = .step 37 ∧ s.ptmr = 0)) ∧
    t.build = s.build ∧ t.host = s.host.tail

/-- No two lines change in one event, reset aside (20_memory R43, 70_reset R109). -/
def Obligations.AtMostOneLineChanges : Prop :=
  ∀ s t : State, step s = .next t → (hostInput s).rst = false →
    (t.clk = s.clk ∧ t.din = s.din) ∨ (t.csN = s.csN ∧ t.din = s.din) ∨
      (t.csN = s.csN ∧ t.clk = s.clk)

/-- `DIN` never changes while `CLK = 1`, and `CLK` is never high while the converter is not selected
(40_acquisition R81, 10_state R15). -/
def Obligations.DinStableWhileClockHigh : Prop :=
  ∀ s t : State, Inv s → step s = .next t → (hostInput s).rst = false → s.clk = 1 →
    t.din = s.din ∧ s.csN = 0

/-- The outputs do not depend on the input: two machines that agree on the lines, the position, the
pause and the build, whose hosts reset and offer at the same ticks, show the same lines at every tick
of a run, whatever is sampled, whichever operation runs, whatever the filter holds (40_acquisition
R82). The ticks and the host's list are the model's: logs 1, 5. -/
def Obligations.OutputsIndependentOfTheInput : Prop :=
  ∀ (m : Nat) (s s' t : State),
    levels s = levels s' → s.seq = s'.seq → s.ptmr = s'.ptmr → s.build = s'.build →
    (s.host.map fun h => (h.rst, h.cmdValid, h.foreign)) =
      (s'.host.map fun h => (h.rst, h.cmdValid, h.foreign)) →
    stepRun m s = .next t →
    ∃ t', stepRun m s' = .next t' ∧ levels t = levels t' ∧ t.seq = t'.seq ∧
      t.ptmr = t'.ptmr

/-- The first FREAD after a reset returns its raw sample unfiltered and fills the buffer with it,
whatever the machine was doing when the reset came (70_reset R110). An operation is 39 events: log 6;
its sample: log 2. -/
def Obligations.ColdStartFollowsEveryReset : Prop :=
  ∀ s : State, s.build.legal = true →
    ∃ t, execRun operationEvents .fread (resetEngine s) = .next t ∧
      t.result = nextSample s ∧ t.hist = List.replicate s.build.n (nextSample s) ∧
      t.cur = 0 ∧ t.init = true ∧ levels t = idleLevels
end

