-- ==== Sys2Proof/Laws/State.lean ====
section
/-! SUPPORT. One lemma per field per update of the state, so that no later proof unfolds a record
update. -/

namespace Sys2Proof.Laws

open Sys2Proof.Machine

/-! `beginTransaction` -/

@[simp] theorem beginTransaction_csN (s : State) : (beginTransaction s).csN = s.csN := rfl
@[simp] theorem beginTransaction_clk (s : State) : (beginTransaction s).clk = s.clk := rfl
@[simp] theorem beginTransaction_din (s : State) : (beginTransaction s).din = s.din := rfl
@[simp] theorem beginTransaction_seq (s : State) : (beginTransaction s).seq = s.seq := rfl
@[simp] theorem beginTransaction_opreg (s : State) : (beginTransaction s).opreg = s.opreg := rfl
@[simp] theorem beginTransaction_shift (s : State) : (beginTransaction s).shift = s.shift := rfl
@[simp] theorem beginTransaction_result (s : State) : (beginTransaction s).result = s.result := rfl
@[simp] theorem beginTransaction_hist (s : State) : (beginTransaction s).hist = s.hist := rfl
@[simp] theorem beginTransaction_cur (s : State) : (beginTransaction s).cur = s.cur := rfl
@[simp] theorem beginTransaction_init (s : State) : (beginTransaction s).init = s.init := rfl
@[simp] theorem beginTransaction_ptmr (s : State) : (beginTransaction s).ptmr = s.ptmr := rfl
@[simp] theorem beginTransaction_build (s : State) : (beginTransaction s).build = s.build := rfl
@[simp] theorem beginTransaction_host (s : State) : (beginTransaction s).host = s.host := rfl
@[simp] theorem beginTransaction_oracle (s : State) : (beginTransaction s).oracle = s.oracle.tail := rfl
@[simp] theorem beginTransaction_answer (s : State) : (beginTransaction s).answer = s.oracle.head? := rfl
@[simp] theorem beginTransaction_draws (s : State) : (beginTransaction s).draws = s.draws := rfl

/-! `histFill` -/

@[simp] theorem histFill_csN (raw : Byte) (s : State) : (histFill raw s).csN = s.csN := rfl
@[simp] theorem histFill_clk (raw : Byte) (s : State) : (histFill raw s).clk = s.clk := rfl
@[simp] theorem histFill_din (raw : Byte) (s : State) : (histFill raw s).din = s.din := rfl
@[simp] theorem histFill_seq (raw : Byte) (s : State) : (histFill raw s).seq = s.seq := rfl
@[simp] theorem histFill_opreg (raw : Byte) (s : State) : (histFill raw s).opreg = s.opreg := rfl
@[simp] theorem histFill_shift (raw : Byte) (s : State) : (histFill raw s).shift = s.shift := rfl
@[simp] theorem histFill_result (raw : Byte) (s : State) : (histFill raw s).result = s.result := rfl
@[simp] theorem histFill_hist (raw : Byte) (s : State) : (histFill raw s).hist = List.replicate s.build.n raw := rfl
@[simp] theorem histFill_cur (raw : Byte) (s : State) : (histFill raw s).cur = s.cur := rfl
@[simp] theorem histFill_init (raw : Byte) (s : State) : (histFill raw s).init = s.init := rfl
@[simp] theorem histFill_ptmr (raw : Byte) (s : State) : (histFill raw s).ptmr = s.ptmr := rfl
@[simp] theorem histFill_build (raw : Byte) (s : State) : (histFill raw s).build = s.build := rfl
@[simp] theorem histFill_host (raw : Byte) (s : State) : (histFill raw s).host = s.host := rfl
@[simp] theorem histFill_oracle (raw : Byte) (s : State) : (histFill raw s).oracle = s.oracle := rfl
@[simp] theorem histFill_answer (raw : Byte) (s : State) : (histFill raw s).answer = s.answer := rfl
@[simp] theorem histFill_draws (raw : Byte) (s : State) : (histFill raw s).draws = s.draws := rfl

/-! `histStore` -/

@[simp] theorem histStore_csN (raw : Byte) (s : State) : (histStore raw s).csN = s.csN := rfl
@[simp] theorem histStore_clk (raw : Byte) (s : State) : (histStore raw s).clk = s.clk := rfl
@[simp] theorem histStore_din (raw : Byte) (s : State) : (histStore raw s).din = s.din := rfl
@[simp] theorem histStore_seq (raw : Byte) (s : State) : (histStore raw s).seq = s.seq := rfl
@[simp] theorem histStore_opreg (raw : Byte) (s : State) : (histStore raw s).opreg = s.opreg := rfl
@[simp] theorem histStore_shift (raw : Byte) (s : State) : (histStore raw s).shift = s.shift := rfl
@[simp] theorem histStore_result (raw : Byte) (s : State) : (histStore raw s).result = s.result := rfl
@[simp] theorem histStore_hist (raw : Byte) (s : State) : (histStore raw s).hist = s.hist.set s.cur raw := rfl
@[simp] theorem histStore_cur (raw : Byte) (s : State) : (histStore raw s).cur = s.cur := rfl
@[simp] theorem histStore_init (raw : Byte) (s : State) : (histStore raw s).init = s.init := rfl
@[simp] theorem histStore_ptmr (raw : Byte) (s : State) : (histStore raw s).ptmr = s.ptmr := rfl
@[simp] theorem histStore_build (raw : Byte) (s : State) : (histStore raw s).build = s.build := rfl
@[simp] theorem histStore_host (raw : Byte) (s : State) : (histStore raw s).host = s.host := rfl
@[simp] theorem histStore_oracle (raw : Byte) (s : State) : (histStore raw s).oracle = s.oracle := rfl
@[simp] theorem histStore_answer (raw : Byte) (s : State) : (histStore raw s).answer = s.answer := rfl
@[simp] theorem histStore_draws (raw : Byte) (s : State) : (histStore raw s).draws = s.draws := rfl

/-! `advanceCursor` -/

@[simp] theorem advanceCursor_csN (s : State) : (advanceCursor s).csN = s.csN := rfl
@[simp] theorem advanceCursor_clk (s : State) : (advanceCursor s).clk = s.clk := rfl
@[simp] theorem advanceCursor_din (s : State) : (advanceCursor s).din = s.din := rfl
@[simp] theorem advanceCursor_seq (s : State) : (advanceCursor s).seq = s.seq := rfl
@[simp] theorem advanceCursor_opreg (s : State) : (advanceCursor s).opreg = s.opreg := rfl
@[simp] theorem advanceCursor_shift (s : State) : (advanceCursor s).shift = s.shift := rfl
@[simp] theorem advanceCursor_result (s : State) : (advanceCursor s).result = s.result := rfl
@[simp] theorem advanceCursor_hist (s : State) : (advanceCursor s).hist = s.hist := rfl
@[simp] theorem advanceCursor_cur (s : State) : (advanceCursor s).cur = (s.cur + 1) % s.build.n := rfl
@[simp] theorem advanceCursor_init (s : State) : (advanceCursor s).init = s.init := rfl
@[simp] theorem advanceCursor_ptmr (s : State) : (advanceCursor s).ptmr = s.ptmr := rfl
@[simp] theorem advanceCursor_build (s : State) : (advanceCursor s).build = s.build := rfl
@[simp] theorem advanceCursor_host (s : State) : (advanceCursor s).host = s.host := rfl
@[simp] theorem advanceCursor_oracle (s : State) : (advanceCursor s).oracle = s.oracle := rfl
@[simp] theorem advanceCursor_answer (s : State) : (advanceCursor s).answer = s.answer := rfl
@[simp] theorem advanceCursor_draws (s : State) : (advanceCursor s).draws = s.draws := rfl

/-! `takeInput` -/

@[simp] theorem takeInput_csN (s : State) : (takeInput s).csN = s.csN := rfl
@[simp] theorem takeInput_clk (s : State) : (takeInput s).clk = s.clk := rfl
@[simp] theorem takeInput_din (s : State) : (takeInput s).din = s.din := rfl
@[simp] theorem takeInput_seq (s : State) : (takeInput s).seq = s.seq := rfl
@[simp] theorem takeInput_opreg (s : State) : (takeInput s).opreg = s.opreg := rfl
@[simp] theorem takeInput_shift (s : State) : (takeInput s).shift = s.shift := rfl
@[simp] theorem takeInput_result (s : State) : (takeInput s).result = s.result := rfl
@[simp] theorem takeInput_hist (s : State) : (takeInput s).hist = s.hist := rfl
@[simp] theorem takeInput_cur (s : State) : (takeInput s).cur = s.cur := rfl
@[simp] theorem takeInput_init (s : State) : (takeInput s).init = s.init := rfl
@[simp] theorem takeInput_ptmr (s : State) : (takeInput s).ptmr = s.ptmr := rfl
@[simp] theorem takeInput_build (s : State) : (takeInput s).build = s.build := rfl
@[simp] theorem takeInput_host (s : State) : (takeInput s).host = s.host.tail := rfl
@[simp] theorem takeInput_oracle (s : State) : (takeInput s).oracle = s.oracle := rfl
@[simp] theorem takeInput_answer (s : State) : (takeInput s).answer = s.answer := rfl
@[simp] theorem takeInput_draws (s : State) : (takeInput s).draws = s.draws := rfl

/-! `goTo` -/

@[simp] theorem goTo_csN (q : Seq) (s : State) : (goTo q s).csN = s.csN := rfl
@[simp] theorem goTo_clk (q : Seq) (s : State) : (goTo q s).clk = s.clk := rfl
@[simp] theorem goTo_din (q : Seq) (s : State) : (goTo q s).din = s.din := rfl
@[simp] theorem goTo_seq (q : Seq) (s : State) : (goTo q s).seq = q := rfl
@[simp] theorem goTo_opreg (q : Seq) (s : State) : (goTo q s).opreg = s.opreg := rfl
@[simp] theorem goTo_shift (q : Seq) (s : State) : (goTo q s).shift = s.shift := rfl
@[simp] theorem goTo_result (q : Seq) (s : State) : (goTo q s).result = s.result := rfl
@[simp] theorem goTo_hist (q : Seq) (s : State) : (goTo q s).hist = s.hist := rfl
@[simp] theorem goTo_cur (q : Seq) (s : State) : (goTo q s).cur = s.cur := rfl
@[simp] theorem goTo_init (q : Seq) (s : State) : (goTo q s).init = s.init := rfl
@[simp] theorem goTo_ptmr (q : Seq) (s : State) : (goTo q s).ptmr = s.ptmr := rfl
@[simp] theorem goTo_build (q : Seq) (s : State) : (goTo q s).build = s.build := rfl
@[simp] theorem goTo_host (q : Seq) (s : State) : (goTo q s).host = s.host := rfl
@[simp] theorem goTo_oracle (q : Seq) (s : State) : (goTo q s).oracle = s.oracle := rfl
@[simp] theorem goTo_answer (q : Seq) (s : State) : (goTo q s).answer = s.answer := rfl
@[simp] theorem goTo_draws (q : Seq) (s : State) : (goTo q s).draws = s.draws := rfl

/-! `fixAnswer` -/

@[simp] theorem fixAnswer_csN (d : Byte) (s : State) : (fixAnswer d s).csN = s.csN := rfl
@[simp] theorem fixAnswer_clk (d : Byte) (s : State) : (fixAnswer d s).clk = s.clk := rfl
@[simp] theorem fixAnswer_din (d : Byte) (s : State) : (fixAnswer d s).din = s.din := rfl
@[simp] theorem fixAnswer_seq (d : Byte) (s : State) : (fixAnswer d s).seq = s.seq := rfl
@[simp] theorem fixAnswer_opreg (d : Byte) (s : State) : (fixAnswer d s).opreg = s.opreg := rfl
@[simp] theorem fixAnswer_shift (d : Byte) (s : State) : (fixAnswer d s).shift = s.shift := rfl
@[simp] theorem fixAnswer_result (d : Byte) (s : State) : (fixAnswer d s).result = s.result := rfl
@[simp] theorem fixAnswer_hist (d : Byte) (s : State) : (fixAnswer d s).hist = s.hist := rfl
@[simp] theorem fixAnswer_cur (d : Byte) (s : State) : (fixAnswer d s).cur = s.cur := rfl
@[simp] theorem fixAnswer_init (d : Byte) (s : State) : (fixAnswer d s).init = s.init := rfl
@[simp] theorem fixAnswer_ptmr (d : Byte) (s : State) : (fixAnswer d s).ptmr = s.ptmr := rfl
@[simp] theorem fixAnswer_build (d : Byte) (s : State) : (fixAnswer d s).build = s.build := rfl
@[simp] theorem fixAnswer_host (d : Byte) (s : State) : (fixAnswer d s).host = s.host := rfl
@[simp] theorem fixAnswer_oracle (d : Byte) (s : State) : (fixAnswer d s).oracle = s.oracle := rfl
@[simp] theorem fixAnswer_answer (d : Byte) (s : State) : (fixAnswer d s).answer = some d := rfl
@[simp] theorem fixAnswer_draws (d : Byte) (s : State) : (fixAnswer d s).draws = s.draws := rfl

/-! `accept` -/

@[simp] theorem accept_csN (op : Bit) (s : State) : (accept op s).csN = s.csN := rfl
@[simp] theorem accept_clk (op : Bit) (s : State) : (accept op s).clk = s.clk := rfl
@[simp] theorem accept_din (op : Bit) (s : State) : (accept op s).din = s.din := rfl
@[simp] theorem accept_seq (op : Bit) (s : State) : (accept op s).seq = .step 0 := rfl
@[simp] theorem accept_opreg (op : Bit) (s : State) : (accept op s).opreg = op := rfl
@[simp] theorem accept_shift (op : Bit) (s : State) : (accept op s).shift = s.shift := rfl
@[simp] theorem accept_result (op : Bit) (s : State) : (accept op s).result = s.result := rfl
@[simp] theorem accept_hist (op : Bit) (s : State) : (accept op s).hist = s.hist := rfl
@[simp] theorem accept_cur (op : Bit) (s : State) : (accept op s).cur = s.cur := rfl
@[simp] theorem accept_init (op : Bit) (s : State) : (accept op s).init = s.init := rfl
@[simp] theorem accept_ptmr (op : Bit) (s : State) : (accept op s).ptmr = s.ptmr := rfl
@[simp] theorem accept_build (op : Bit) (s : State) : (accept op s).build = s.build := rfl
@[simp] theorem accept_host (op : Bit) (s : State) : (accept op s).host = s.host := rfl
@[simp] theorem accept_oracle (op : Bit) (s : State) : (accept op s).oracle = s.oracle := rfl
@[simp] theorem accept_answer (op : Bit) (s : State) : (accept op s).answer = s.answer := rfl
@[simp] theorem accept_draws (op : Bit) (s : State) : (accept op s).draws = s.draws := rfl

/-! `resetEngine` -/

@[simp] theorem resetEngine_csN (s : State) : (resetEngine s).csN = 1 := rfl
@[simp] theorem resetEngine_clk (s : State) : (resetEngine s).clk = 0 := rfl
@[simp] theorem resetEngine_din (s : State) : (resetEngine s).din = 1 := rfl
@[simp] theorem resetEngine_seq (s : State) : (resetEngine s).seq = .idle := rfl
@[simp] theorem resetEngine_opreg (s : State) : (resetEngine s).opreg = 0 := rfl
@[simp] theorem resetEngine_shift (s : State) : (resetEngine s).shift = 0 := rfl
@[simp] theorem resetEngine_result (s : State) : (resetEngine s).result = 0 := rfl
@[simp] theorem resetEngine_hist (s : State) : (resetEngine s).hist = List.replicate s.build.n 0 := rfl
@[simp] theorem resetEngine_cur (s : State) : (resetEngine s).cur = 0 := rfl
@[simp] theorem resetEngine_init (s : State) : (resetEngine s).init = false := rfl
@[simp] theorem resetEngine_ptmr (s : State) : (resetEngine s).ptmr = 0 := rfl
@[simp] theorem resetEngine_build (s : State) : (resetEngine s).build = s.build := rfl
@[simp] theorem resetEngine_host (s : State) : (resetEngine s).host = s.host := rfl
@[simp] theorem resetEngine_oracle (s : State) : (resetEngine s).oracle = s.oracle := rfl
@[simp] theorem resetEngine_answer (s : State) : (resetEngine s).answer = s.answer := rfl
@[simp] theorem resetEngine_draws (s : State) : (resetEngine s).draws = s.draws := rfl

/-! `waitTick` -/

@[simp] theorem waitTick_csN (s : State) : (waitTick s).csN = s.csN := rfl
@[simp] theorem waitTick_clk (s : State) : (waitTick s).clk = s.clk := rfl
@[simp] theorem waitTick_din (s : State) : (waitTick s).din = s.din := rfl
@[simp] theorem waitTick_seq (s : State) : (waitTick s).seq = s.seq := rfl
@[simp] theorem waitTick_opreg (s : State) : (waitTick s).opreg = s.opreg := rfl
@[simp] theorem waitTick_shift (s : State) : (waitTick s).shift = s.shift := rfl
@[simp] theorem waitTick_result (s : State) : (waitTick s).result = s.result := rfl
@[simp] theorem waitTick_hist (s : State) : (waitTick s).hist = s.hist := rfl
@[simp] theorem waitTick_cur (s : State) : (waitTick s).cur = s.cur := rfl
@[simp] theorem waitTick_init (s : State) : (waitTick s).init = s.init := rfl
@[simp] theorem waitTick_ptmr (s : State) : (waitTick s).ptmr = s.ptmr - 1 := rfl
@[simp] theorem waitTick_build (s : State) : (waitTick s).build = s.build := rfl
@[simp] theorem waitTick_host (s : State) : (waitTick s).host = s.host := rfl
@[simp] theorem waitTick_oracle (s : State) : (waitTick s).oracle = s.oracle := rfl
@[simp] theorem waitTick_answer (s : State) : (waitTick s).answer = s.answer := rfl
@[simp] theorem waitTick_draws (s : State) : (waitTick s).draws = s.draws := rfl

/-! `startPause` -/

@[simp] theorem startPause_csN (p : Bool) (s : State) : (startPause p s).csN = s.csN := rfl
@[simp] theorem startPause_clk (p : Bool) (s : State) : (startPause p s).clk = s.clk := rfl
@[simp] theorem startPause_din (p : Bool) (s : State) : (startPause p s).din = s.din := rfl
@[simp] theorem startPause_seq (p : Bool) (s : State) : (startPause p s).seq = s.seq := rfl
@[simp] theorem startPause_opreg (p : Bool) (s : State) : (startPause p s).opreg = s.opreg := rfl
@[simp] theorem startPause_shift (p : Bool) (s : State) : (startPause p s).shift = s.shift := rfl
@[simp] theorem startPause_result (p : Bool) (s : State) : (startPause p s).result = s.result := rfl
@[simp] theorem startPause_hist (p : Bool) (s : State) : (startPause p s).hist = s.hist := rfl
@[simp] theorem startPause_cur (p : Bool) (s : State) : (startPause p s).cur = s.cur := rfl
@[simp] theorem startPause_init (p : Bool) (s : State) : (startPause p s).init = s.init := rfl
@[simp] theorem startPause_ptmr (p : Bool) (s : State) : (startPause p s).ptmr = if p then s.build.tSettle else 0 := rfl
@[simp] theorem startPause_build (p : Bool) (s : State) : (startPause p s).build = s.build := rfl
@[simp] theorem startPause_host (p : Bool) (s : State) : (startPause p s).host = s.host := rfl
@[simp] theorem startPause_oracle (p : Bool) (s : State) : (startPause p s).oracle = s.oracle := rfl
@[simp] theorem startPause_answer (p : Bool) (s : State) : (startPause p s).answer = s.answer := rfl
@[simp] theorem startPause_draws (p : Bool) (s : State) : (startPause p s).draws = s.draws := rfl

/-! `completeAcq` -/

@[simp] theorem completeAcq_csN (s : State) : (completeAcq s).csN = s.csN := rfl
@[simp] theorem completeAcq_clk (s : State) : (completeAcq s).clk = s.clk := rfl
@[simp] theorem completeAcq_din (s : State) : (completeAcq s).din = s.din := rfl
@[simp] theorem completeAcq_seq (s : State) : (completeAcq s).seq = s.seq := rfl
@[simp] theorem completeAcq_opreg (s : State) : (completeAcq s).opreg = s.opreg := rfl
@[simp] theorem completeAcq_shift (s : State) : (completeAcq s).shift = s.shift := rfl
@[simp] theorem completeAcq_result (s : State) : (completeAcq s).result = s.shift := rfl
@[simp] theorem completeAcq_hist (s : State) : (completeAcq s).hist = s.hist := rfl
@[simp] theorem completeAcq_cur (s : State) : (completeAcq s).cur = s.cur := rfl
@[simp] theorem completeAcq_init (s : State) : (completeAcq s).init = s.init := rfl
@[simp] theorem completeAcq_ptmr (s : State) : (completeAcq s).ptmr = s.ptmr := rfl
@[simp] theorem completeAcq_build (s : State) : (completeAcq s).build = s.build := rfl
@[simp] theorem completeAcq_host (s : State) : (completeAcq s).host = s.host := rfl
@[simp] theorem completeAcq_oracle (s : State) : (completeAcq s).oracle = s.oracle := rfl
@[simp] theorem completeAcq_answer (s : State) : (completeAcq s).answer = s.answer := rfl
@[simp] theorem completeAcq_draws (s : State) : (completeAcq s).draws = s.draws := rfl

/-! `setMean` -/

@[simp] theorem setMean_csN (s : State) : (setMean s).csN = s.csN := rfl
@[simp] theorem setMean_clk (s : State) : (setMean s).clk = s.clk := rfl
@[simp] theorem setMean_din (s : State) : (setMean s).din = s.din := rfl
@[simp] theorem setMean_seq (s : State) : (setMean s).seq = s.seq := rfl
@[simp] theorem setMean_opreg (s : State) : (setMean s).opreg = s.opreg := rfl
@[simp] theorem setMean_shift (s : State) : (setMean s).shift = s.shift := rfl
@[simp] theorem setMean_result (s : State) : (setMean s).result = truncatedMean s.build s.hist := rfl
@[simp] theorem setMean_hist (s : State) : (setMean s).hist = s.hist := rfl
@[simp] theorem setMean_cur (s : State) : (setMean s).cur = s.cur := rfl
@[simp] theorem setMean_init (s : State) : (setMean s).init = s.init := rfl
@[simp] theorem setMean_ptmr (s : State) : (setMean s).ptmr = s.ptmr := rfl
@[simp] theorem setMean_build (s : State) : (setMean s).build = s.build := rfl
@[simp] theorem setMean_host (s : State) : (setMean s).host = s.host := rfl
@[simp] theorem setMean_oracle (s : State) : (setMean s).oracle = s.oracle := rfl
@[simp] theorem setMean_answer (s : State) : (setMean s).answer = s.answer := rfl
@[simp] theorem setMean_draws (s : State) : (setMean s).draws = s.draws := rfl

/-! `coldStart` -/

@[simp] theorem coldStart_csN (raw : Byte) (s : State) : (coldStart raw s).csN = s.csN := rfl
@[simp] theorem coldStart_clk (raw : Byte) (s : State) : (coldStart raw s).clk = s.clk := rfl
@[simp] theorem coldStart_din (raw : Byte) (s : State) : (coldStart raw s).din = s.din := rfl
@[simp] theorem coldStart_seq (raw : Byte) (s : State) : (coldStart raw s).seq = s.seq := rfl
@[simp] theorem coldStart_opreg (raw : Byte) (s : State) : (coldStart raw s).opreg = s.opreg := rfl
@[simp] theorem coldStart_shift (raw : Byte) (s : State) : (coldStart raw s).shift = s.shift := rfl
@[simp] theorem coldStart_result (raw : Byte) (s : State) : (coldStart raw s).result = raw := rfl
@[simp] theorem coldStart_hist (raw : Byte) (s : State) : (coldStart raw s).hist = List.replicate s.build.n raw := rfl
@[simp] theorem coldStart_cur (raw : Byte) (s : State) : (coldStart raw s).cur = 0 := rfl
@[simp] theorem coldStart_init (raw : Byte) (s : State) : (coldStart raw s).init = true := rfl
@[simp] theorem coldStart_ptmr (raw : Byte) (s : State) : (coldStart raw s).ptmr = s.ptmr := rfl
@[simp] theorem coldStart_build (raw : Byte) (s : State) : (coldStart raw s).build = s.build := rfl
@[simp] theorem coldStart_host (raw : Byte) (s : State) : (coldStart raw s).host = s.host := rfl
@[simp] theorem coldStart_oracle (raw : Byte) (s : State) : (coldStart raw s).oracle = s.oracle := rfl
@[simp] theorem coldStart_answer (raw : Byte) (s : State) : (coldStart raw s).answer = s.answer := rfl
@[simp] theorem coldStart_draws (raw : Byte) (s : State) : (coldStart raw s).draws = s.draws := rfl

/-! `pinWrite`: one line changes, nothing else (20_memory R36) -/

@[simp] theorem pinWrite_csN (l : Line) (b : Bit) (s : State) :
    (pinWrite l b s).csN = if l = .csN then b else s.csN := by cases l <;> rfl
@[simp] theorem pinWrite_clk (l : Line) (b : Bit) (s : State) :
    (pinWrite l b s).clk = if l = .clk then b else s.clk := by cases l <;> rfl
@[simp] theorem pinWrite_din (l : Line) (b : Bit) (s : State) :
    (pinWrite l b s).din = if l = .din then b else s.din := by cases l <;> rfl
@[simp] theorem pinWrite_seq (l : Line) (b : Bit) (s : State) :
    (pinWrite l b s).seq = s.seq := by cases l <;> rfl
@[simp] theorem pinWrite_opreg (l : Line) (b : Bit) (s : State) :
    (pinWrite l b s).opreg = s.opreg := by cases l <;> rfl
@[simp] theorem pinWrite_shift (l : Line) (b : Bit) (s : State) :
    (pinWrite l b s).shift = s.shift := by cases l <;> rfl
@[simp] theorem pinWrite_result (l : Line) (b : Bit) (s : State) :
    (pinWrite l b s).result = s.result := by cases l <;> rfl
@[simp] theorem pinWrite_hist (l : Line) (b : Bit) (s : State) :
    (pinWrite l b s).hist = s.hist := by cases l <;> rfl
@[simp] theorem pinWrite_cur (l : Line) (b : Bit) (s : State) :
    (pinWrite l b s).cur = s.cur := by cases l <;> rfl
@[simp] theorem pinWrite_init (l : Line) (b : Bit) (s : State) :
    (pinWrite l b s).init = s.init := by cases l <;> rfl
@[simp] theorem pinWrite_ptmr (l : Line) (b : Bit) (s : State) :
    (pinWrite l b s).ptmr = s.ptmr := by cases l <;> rfl
@[simp] theorem pinWrite_build (l : Line) (b : Bit) (s : State) :
    (pinWrite l b s).build = s.build := by cases l <;> rfl
@[simp] theorem pinWrite_host (l : Line) (b : Bit) (s : State) :
    (pinWrite l b s).host = s.host := by cases l <;> rfl
@[simp] theorem pinWrite_oracle (l : Line) (b : Bit) (s : State) :
    (pinWrite l b s).oracle = s.oracle := by cases l <;> rfl
@[simp] theorem pinWrite_answer (l : Line) (b : Bit) (s : State) :
    (pinWrite l b s).answer = s.answer := by cases l <;> rfl
@[simp] theorem pinWrite_draws (l : Line) (b : Bit) (s : State) :
    (pinWrite l b s).draws = s.draws := by cases l <;> rfl

/-! `writeLine` -/

@[simp] theorem writeLine_seq (w : Option (Line × Bit)) (s : State) :
    (writeLine w s).seq = s.seq := by rcases w with _ | ⟨l, b⟩ <;> simp [writeLine]
@[simp] theorem writeLine_opreg (w : Option (Line × Bit)) (s : State) :
    (writeLine w s).opreg = s.opreg := by rcases w with _ | ⟨l, b⟩ <;> simp [writeLine]
@[simp] theorem writeLine_shift (w : Option (Line × Bit)) (s : State) :
    (writeLine w s).shift = s.shift := by rcases w with _ | ⟨l, b⟩ <;> simp [writeLine]
@[simp] theorem writeLine_result (w : Option (Line × Bit)) (s : State) :
    (writeLine w s).result = s.result := by rcases w with _ | ⟨l, b⟩ <;> simp [writeLine]
@[simp] theorem writeLine_hist (w : Option (Line × Bit)) (s : State) :
    (writeLine w s).hist = s.hist := by rcases w with _ | ⟨l, b⟩ <;> simp [writeLine]
@[simp] theorem writeLine_cur (w : Option (Line × Bit)) (s : State) :
    (writeLine w s).cur = s.cur := by rcases w with _ | ⟨l, b⟩ <;> simp [writeLine]
@[simp] theorem writeLine_init (w : Option (Line × Bit)) (s : State) :
    (writeLine w s).init = s.init := by rcases w with _ | ⟨l, b⟩ <;> simp [writeLine]
@[simp] theorem writeLine_ptmr (w : Option (Line × Bit)) (s : State) :
    (writeLine w s).ptmr = s.ptmr := by rcases w with _ | ⟨l, b⟩ <;> simp [writeLine]
@[simp] theorem writeLine_build (w : Option (Line × Bit)) (s : State) :
    (writeLine w s).build = s.build := by rcases w with _ | ⟨l, b⟩ <;> simp [writeLine]
@[simp] theorem writeLine_host (w : Option (Line × Bit)) (s : State) :
    (writeLine w s).host = s.host := by rcases w with _ | ⟨l, b⟩ <;> simp [writeLine]
@[simp] theorem writeLine_oracle (w : Option (Line × Bit)) (s : State) :
    (writeLine w s).oracle = s.oracle := by rcases w with _ | ⟨l, b⟩ <;> simp [writeLine]
@[simp] theorem writeLine_answer (w : Option (Line × Bit)) (s : State) :
    (writeLine w s).answer = s.answer := by rcases w with _ | ⟨l, b⟩ <;> simp [writeLine]
@[simp] theorem writeLine_draws (w : Option (Line × Bit)) (s : State) :
    (writeLine w s).draws = s.draws := by rcases w with _ | ⟨l, b⟩ <;> simp [writeLine]

/-! `drawn`: only the index of the next free value can change (20_memory R41) -/

@[simp] theorem drawn_csN (s : State) : (drawn s).csN = s.csN := by unfold drawn; split <;> rfl
@[simp] theorem drawn_clk (s : State) : (drawn s).clk = s.clk := by unfold drawn; split <;> rfl
@[simp] theorem drawn_din (s : State) : (drawn s).din = s.din := by unfold drawn; split <;> rfl
@[simp] theorem drawn_seq (s : State) : (drawn s).seq = s.seq := by unfold drawn; split <;> rfl
@[simp] theorem drawn_opreg (s : State) : (drawn s).opreg = s.opreg := by unfold drawn; split <;> rfl
@[simp] theorem drawn_shift (s : State) : (drawn s).shift = s.shift := by unfold drawn; split <;> rfl
@[simp] theorem drawn_result (s : State) : (drawn s).result = s.result := by unfold drawn; split <;> rfl
@[simp] theorem drawn_hist (s : State) : (drawn s).hist = s.hist := by unfold drawn; split <;> rfl
@[simp] theorem drawn_cur (s : State) : (drawn s).cur = s.cur := by unfold drawn; split <;> rfl
@[simp] theorem drawn_init (s : State) : (drawn s).init = s.init := by unfold drawn; split <;> rfl
@[simp] theorem drawn_ptmr (s : State) : (drawn s).ptmr = s.ptmr := by unfold drawn; split <;> rfl
@[simp] theorem drawn_build (s : State) : (drawn s).build = s.build := by unfold drawn; split <;> rfl
@[simp] theorem drawn_host (s : State) : (drawn s).host = s.host := by unfold drawn; split <;> rfl
@[simp] theorem drawn_oracle (s : State) : (drawn s).oracle = s.oracle := by unfold drawn; split <;> rfl
@[simp] theorem drawn_answer (s : State) : (drawn s).answer = s.answer := by unfold drawn; split <;> rfl
@[simp] theorem drawn_draws (s : State) :
    (drawn s).draws = if s.answer = none then s.draws + 1 else s.draws := by
  unfold drawn; split <;> simp_all

/-! `sampleBit` -/

@[simp] theorem sampleBit_csN (k : Fin 8) (s : State) : (sampleBit k s).csN = s.csN := by
  simp [sampleBit]
@[simp] theorem sampleBit_clk (k : Fin 8) (s : State) : (sampleBit k s).clk = s.clk := by
  simp [sampleBit]
@[simp] theorem sampleBit_din (k : Fin 8) (s : State) : (sampleBit k s).din = s.din := by
  simp [sampleBit]
@[simp] theorem sampleBit_seq (k : Fin 8) (s : State) : (sampleBit k s).seq = s.seq := by
  simp [sampleBit]
@[simp] theorem sampleBit_opreg (k : Fin 8) (s : State) : (sampleBit k s).opreg = s.opreg := by
  simp [sampleBit]
@[simp] theorem sampleBit_shift (k : Fin 8) (s : State) : (sampleBit k s).shift = shiftIn s.shift (pinRead k s) := by
  simp [sampleBit]
@[simp] theorem sampleBit_result (k : Fin 8) (s : State) : (sampleBit k s).result = s.result := by
  simp [sampleBit]
@[simp] theorem sampleBit_hist (k : Fin 8) (s : State) : (sampleBit k s).hist = s.hist := by
  simp [sampleBit]
@[simp] theorem sampleBit_cur (k : Fin 8) (s : State) : (sampleBit k s).cur = s.cur := by
  simp [sampleBit]
@[simp] theorem sampleBit_init (k : Fin 8) (s : State) : (sampleBit k s).init = s.init := by
  simp [sampleBit]
@[simp] theorem sampleBit_ptmr (k : Fin 8) (s : State) : (sampleBit k s).ptmr = s.ptmr := by
  simp [sampleBit]
@[simp] theorem sampleBit_build (k : Fin 8) (s : State) : (sampleBit k s).build = s.build := by
  simp [sampleBit]
@[simp] theorem sampleBit_host (k : Fin 8) (s : State) : (sampleBit k s).host = s.host := by
  simp [sampleBit]
@[simp] theorem sampleBit_oracle (k : Fin 8) (s : State) : (sampleBit k s).oracle = s.oracle := by
  simp [sampleBit]
@[simp] theorem sampleBit_answer (k : Fin 8) (s : State) : (sampleBit k s).answer = s.answer := by
  simp [sampleBit]
@[simp] theorem sampleBit_draws (k : Fin 8) (s : State) :
    (sampleBit k s).draws = if s.answer = none then s.draws + 1 else s.draws := by
  simp [sampleBit]

/-! `clearShift` -/

@[simp] theorem clearShift_csN (s : State) : (clearShift s).csN = s.csN := rfl
@[simp] theorem clearShift_clk (s : State) : (clearShift s).clk = s.clk := rfl
@[simp] theorem clearShift_din (s : State) : (clearShift s).din = s.din := rfl
@[simp] theorem clearShift_seq (s : State) : (clearShift s).seq = s.seq := rfl
@[simp] theorem clearShift_opreg (s : State) : (clearShift s).opreg = s.opreg := rfl
@[simp] theorem clearShift_shift (s : State) : (clearShift s).shift = 0 := rfl
@[simp] theorem clearShift_result (s : State) : (clearShift s).result = s.result := rfl
@[simp] theorem clearShift_hist (s : State) : (clearShift s).hist = s.hist := rfl
@[simp] theorem clearShift_cur (s : State) : (clearShift s).cur = s.cur := rfl
@[simp] theorem clearShift_init (s : State) : (clearShift s).init = s.init := rfl
@[simp] theorem clearShift_ptmr (s : State) : (clearShift s).ptmr = s.ptmr := rfl
@[simp] theorem clearShift_build (s : State) : (clearShift s).build = s.build := rfl
@[simp] theorem clearShift_host (s : State) : (clearShift s).host = s.host := rfl
@[simp] theorem clearShift_oracle (s : State) : (clearShift s).oracle = s.oracle.tail := rfl
@[simp] theorem clearShift_answer (s : State) : (clearShift s).answer = s.oracle.head? := rfl
@[simp] theorem clearShift_draws (s : State) : (clearShift s).draws = s.draws := rfl

/-! `steadyState` (41_filter R87) -/

@[simp] theorem steadyState_csN (raw : Byte) (s : State) :
    (steadyState raw s).csN = s.csN := rfl
@[simp] theorem steadyState_clk (raw : Byte) (s : State) :
    (steadyState raw s).clk = s.clk := rfl
@[simp] theorem steadyState_din (raw : Byte) (s : State) :
    (steadyState raw s).din = s.din := rfl
@[simp] theorem steadyState_seq (raw : Byte) (s : State) :
    (steadyState raw s).seq = s.seq := rfl
@[simp] theorem steadyState_opreg (raw : Byte) (s : State) :
    (steadyState raw s).opreg = s.opreg := rfl
@[simp] theorem steadyState_shift (raw : Byte) (s : State) :
    (steadyState raw s).shift = s.shift := rfl
@[simp] theorem steadyState_result (raw : Byte) (s : State) :
    (steadyState raw s).result = truncatedMean s.build (s.hist.set s.cur raw) := rfl
@[simp] theorem steadyState_hist (raw : Byte) (s : State) :
    (steadyState raw s).hist = s.hist.set s.cur raw := rfl
@[simp] theorem steadyState_cur (raw : Byte) (s : State) :
    (steadyState raw s).cur = (s.cur + 1) % s.build.n := rfl
@[simp] theorem steadyState_init (raw : Byte) (s : State) :
    (steadyState raw s).init = s.init := rfl
@[simp] theorem steadyState_ptmr (raw : Byte) (s : State) :
    (steadyState raw s).ptmr = s.ptmr := rfl
@[simp] theorem steadyState_build (raw : Byte) (s : State) :
    (steadyState raw s).build = s.build := rfl
@[simp] theorem steadyState_host (raw : Byte) (s : State) :
    (steadyState raw s).host = s.host := rfl
@[simp] theorem steadyState_oracle (raw : Byte) (s : State) :
    (steadyState raw s).oracle = s.oracle := rfl
@[simp] theorem steadyState_answer (raw : Byte) (s : State) :
    (steadyState raw s).answer = s.answer := rfl
@[simp] theorem steadyState_draws (raw : Byte) (s : State) :
    (steadyState raw s).draws = s.draws := rfl

/-! `complete`: only the filter and the result can change (40_acquisition R74, 41_filter R85) -/

@[simp] theorem complete_csN (s : State) : (complete s).csN = s.csN := by
  unfold complete completeFread; split_ifs <;> rfl
@[simp] theorem complete_clk (s : State) : (complete s).clk = s.clk := by
  unfold complete completeFread; split_ifs <;> rfl
@[simp] theorem complete_din (s : State) : (complete s).din = s.din := by
  unfold complete completeFread; split_ifs <;> rfl
@[simp] theorem complete_seq (s : State) : (complete s).seq = s.seq := by
  unfold complete completeFread; split_ifs <;> rfl
@[simp] theorem complete_opreg (s : State) : (complete s).opreg = s.opreg := by
  unfold complete completeFread; split_ifs <;> rfl
@[simp] theorem complete_shift (s : State) : (complete s).shift = s.shift := by
  unfold complete completeFread; split_ifs <;> rfl
@[simp] theorem complete_ptmr (s : State) : (complete s).ptmr = s.ptmr := by
  unfold complete completeFread; split_ifs <;> rfl
@[simp] theorem complete_build (s : State) : (complete s).build = s.build := by
  unfold complete completeFread; split_ifs <;> rfl
@[simp] theorem complete_host (s : State) : (complete s).host = s.host := by
  unfold complete completeFread; split_ifs <;> rfl
@[simp] theorem complete_oracle (s : State) : (complete s).oracle = s.oracle := by
  unfold complete completeFread; split_ifs <;> rfl
@[simp] theorem complete_answer (s : State) : (complete s).answer = s.answer := by
  unfold complete completeFread; split_ifs <;> rfl
@[simp] theorem complete_draws (s : State) : (complete s).draws = s.draws := by
  unfold complete completeFread; split_ifs <;> rfl

/-! `stepAction`: no action writes a line, a position, the operation, the pause timer, the build or
the host -/

@[simp] theorem stepAction_csN (a : StepKind) (s : State) :
    (stepAction a s).csN = s.csN := by cases a <;> simp [stepAction]
@[simp] theorem stepAction_clk (a : StepKind) (s : State) :
    (stepAction a s).clk = s.clk := by cases a <;> simp [stepAction]
@[simp] theorem stepAction_din (a : StepKind) (s : State) :
    (stepAction a s).din = s.din := by cases a <;> simp [stepAction]
@[simp] theorem stepAction_seq (a : StepKind) (s : State) :
    (stepAction a s).seq = s.seq := by cases a <;> simp [stepAction]
@[simp] theorem stepAction_opreg (a : StepKind) (s : State) :
    (stepAction a s).opreg = s.opreg := by cases a <;> simp [stepAction]
@[simp] theorem stepAction_ptmr (a : StepKind) (s : State) :
    (stepAction a s).ptmr = s.ptmr := by cases a <;> simp [stepAction]
@[simp] theorem stepAction_build (a : StepKind) (s : State) :
    (stepAction a s).build = s.build := by cases a <;> simp [stepAction]
@[simp] theorem stepAction_host (a : StepKind) (s : State) :
    (stepAction a s).host = s.host := by cases a <;> simp [stepAction]

end Sys2Proof.Laws
end

