-- ==== Sys2Proof/Laws/Ops.lean ====
section
/-! SUPPORT. One lemma per shared operation that says what it can do; the provers cite these instead of
unfolding the operation. -/

namespace Sys2Proof.Laws

open Sys2Proof.Machine

theorem buildRefusal_none_iff (b : Build) : buildRefusal b = none ↔ b.legal = true := by
  have e : b.legal = true ↔ 1 ≤ b.n ∧ 255 * b.n < 2 ^ b.accW ∧ 1 ≤ b.tSettle := by
    simp [Build.legal, and_assoc]
  rw [e]
  unfold buildRefusal
  generalize 2 ^ b.accW = w
  split_ifs <;> simp <;> omega

theorem onLegalBuild_of_legal {b : Build} (h : b.legal = true) (t : State) :
    onLegalBuild b t = .next t := by
  simp [onLegalBuild, (buildRefusal_none_iff b).2 h]

/-- `onLegalBuild` answers a next state exactly on a legal build, and then the one it was given. -/
theorem onLegalBuild_next_iff {b : Build} {t u : State} :
    onLegalBuild b t = .next u ↔ b.legal = true ∧ u = t := by
  rw [← buildRefusal_none_iff]
  unfold onLegalBuild
  cases buildRefusal b with
  | none => exact ⟨fun h => ⟨rfl, by injection h with h; exact h.symm⟩, fun h => by rw [h.2]⟩
  | some r => exact ⟨nofun, fun h => nomatch h.1⟩

theorem execAcq_next_iff {s t : State} :
    exec .acq s = .next t ↔ s.build.legal = true ∧ t = offer 0 s := onLegalBuild_next_iff

theorem execFread_next_iff {s t : State} :
    exec .fread s = .next t ↔ s.build.legal = true ∧ t = offer 1 s := onLegalBuild_next_iff

/-- FRAME answers a next state exactly on a legal build with a frame in progress. -/
theorem execFrame_next_iff {d : Byte} {s t : State} :
    exec (.frame d) s = .next t ↔
      ∃ k : Fin 38, s.seq = .step k ∧ k ≠ 37 ∧ s.build.legal = true ∧ t = frameStep d k s := by
  show execFrame d s = .next t ↔ _
  unfold execFrame
  cases h : s.seq with
  | idle => simp
  | step k =>
    by_cases hk : k = 37
    · subst hk; simp
    · have hv : ¬ k.val = 37 := fun e => hk (Fin.ext e)
      simp [hv, hk, onLegalBuild_next_iff]

@[simp] theorem offer_idle {op : Bit} {s : State} (h : s.seq = .idle) :
    offer op s = accept op s := by simp [offer, h]

theorem offer_step {op : Bit} {s : State} {k : Fin 38} (h : s.seq = .step k) :
    offer op s = seqStep k s := by simp [offer, h]

/-- What COMPLETE can do: return the raw sample, cold-start the filter, or update it. -/
theorem complete_cases (s : State) :
    (s.opreg = 0 ∧ complete s = completeAcq s) ∨
    (s.opreg ≠ 0 ∧ s.init = false ∧ complete s = coldStart s.shift s) ∨
    (s.opreg ≠ 0 ∧ s.init = true ∧ complete s = steadyState s.shift s) := by
  by_cases h : s.opreg = 0
  · exact .inl ⟨h, if_pos h⟩
  · cases hi : s.init
    · exact .inr (.inl ⟨h, rfl, by rw [complete, if_neg h]; simp [completeFread, hi]⟩)
    · exact .inr (.inr ⟨h, rfl, by rw [complete, if_neg h]; simp [completeFread, hi]⟩)

/-- Only the last row of the table is COMPLETE. -/
theorem stepKind_complete_iff : ∀ k : Fin 38, stepKind k = .complete ↔ k = 37 := by decide

/-- Only row 0 of the table is START-CS. -/
theorem stepKind_startCs_iff : ∀ k : Fin 38, stepKind k = .startCs ↔ k = 0 := by decide

@[simp] theorem seqStep_seq (k : Fin 38) (s : State) : (seqStep k s).seq = nextSeq k := rfl

@[simp] theorem seqStep_build (k : Fin 38) (s : State) : (seqStep k s).build = s.build := by
  simp [seqStep]

@[simp] theorem seqStep_host (k : Fin 38) (s : State) : (seqStep k s).host = s.host := by
  simp [seqStep]

@[simp] theorem seqStep_opreg (k : Fin 38) (s : State) : (seqStep k s).opreg = s.opreg := by
  simp [seqStep]

@[simp] theorem seqStep_ptmr (k : Fin 38) (s : State) :
    (seqStep k s).ptmr = if stepPause (stepKind k) then s.build.tSettle else 0 := by
  simp [seqStep]

/-- A step writes at most the one line of its row (20_memory R43). -/
theorem seqStep_levels (k : Fin 38) (s : State) :
    levels (seqStep k s) = levels (writeLine (stepWrite (stepKind k)) s) := by
  rcases h : stepWrite (stepKind k) with _ | ⟨l, b⟩ <;>
    simp [seqStep, h, writeLine, levels]

/-- Before COMPLETE no step touches the filter or the result (10_state R20, R32 (e)). -/
theorem seqStep_filter {k : Fin 38} (h : k ≠ 37) (s : State) :
    (seqStep k s).hist = s.hist ∧ (seqStep k s).cur = s.cur ∧ (seqStep k s).init = s.init ∧
      (seqStep k s).result = s.result := by
  have hc : stepKind k ≠ .complete := fun e => h ((stepKind_complete_iff k).1 e)
  revert hc
  cases hk : stepKind k <;> simp [seqStep, stepAction, hk]

/-- COMPLETE changes what `complete` changes, ends the pause and makes the engine idle. -/
theorem seqStep_complete (s : State) :
    seqStep 37 s = { complete s with ptmr := 0, seq := .idle } := rfl

/-- What a step of the machine can be. -/
theorem step_cases (s : State) :
    (∃ r, tickKind s = .stop r ∧ step s = .refused r) ∨
    (tickKind s = .reset ∧ step s = .next (resetEngine (takeInput s))) ∨
    (tickKind s = .wait ∧ step s = .next (waitTick (takeInput s))) ∨
    (tickKind s = .idle ∧ step s = .next (takeInput s)) ∨
    (∃ i, tickKind s = .run i ∧ step s = exec i (takeInput s)) := by
  unfold step
  cases tickKind s <;> simp

/-- The lines are contended exactly when something foreign is on those of a busy engine. -/
theorem contended_iff {s : State} :
    contended s = true ↔ s.seq ≠ .idle ∧ (hostInput s).foreign = true := by
  cases h : s.seq <;> simp [contended, busy, h]

theorem contended_of_undisturbed {s : State} (h : (hostInput s).foreign = false) :
    contended s = false := by
  rw [contended, h, Bool.and_false]

/-- What the kind of a tick says of the state: the order of 60_exceptions R98. -/
theorem tickKind_cases (s : State) :
    (∃ r, tickKind s = .stop r) ∨
    (tickKind s = .reset ∧ s.build.legal = true ∧ (hostInput s).rst = true) ∨
    (tickKind s = .wait ∧ s.build.legal = true ∧ (hostInput s).rst = false ∧
      contended s = false ∧ s.ptmr ≠ 0) ∨
    (s.build.legal = true ∧ (hostInput s).rst = false ∧ contended s = false ∧ s.ptmr = 0 ∧
      ((tickKind s = .idle ∧ currentInstr s = none) ∨
        ∃ i, tickKind s = .run i ∧ currentInstr s = some i)) := by
  unfold tickKind
  rw [← buildRefusal_none_iff]
  cases hb : buildRefusal s.build with
  | some r => simp
  | none =>
    cases hr : (hostInput s).rst
    · cases hc : contended s
      · by_cases hp : s.ptmr = 0
        · cases currentInstr s <;> simp [hp]
        · simp [hp]
      · simp
    · simp

/-- The instruction of a run tick is a host command, the one in flight or the one offered. -/
theorem currentInstr_eq {s : State} {i : Instr} (h : currentInstr s = some i) :
    i = .acq ∨ i = .fread := by
  unfold currentInstr decodeCmd at h
  split at h
  · split at h <;> simp_all
  · split at h
    · split at h <;> simp_all
    · simp at h

/-- The event of a command, whichever of the two it is. -/
theorem exec_command {s : State} {i : Instr} (hi : i = .acq ∨ i = .fread)
    (hb : s.build.legal = true) : ∃ op, exec i s = .next (offer op s) := by
  rcases hi with rfl | rfl
  · exact ⟨0, execAcq_next_iff.2 ⟨hb, rfl⟩⟩
  · exact ⟨1, execFread_next_iff.2 ⟨hb, rfl⟩⟩

end Sys2Proof.Laws
end

