-- ==== Sys2Proof/Laws/Memory.lean ====
section
/-! SUPPORT. The history keeps its form (exactly `N` entries, the cursor naming one) under every
operation, and a read after a store. -/

namespace Sys2Proof.Laws

open Sys2Proof.Machine Sys2Proof.Safety

theorem histRead_store_same {s : State} (h : histWf s) (raw : Byte) :
    histRead (histStore raw s) s.cur = some raw := by
  have : s.cur < s.hist.length := h.1 ▸ h.2
  simp [histRead, this]

theorem histRead_store_other (s : State) (raw : Byte) {i : Nat} (h : i ≠ s.cur) :
    histRead (histStore raw s) i = histRead s i := by
  simp [histRead, Ne.symm h]

theorem histFill_histWf {s : State} (h : histWf s) (raw : Byte) : histWf (histFill raw s) := by
  simpa [histWf] using h.2

theorem histStore_histWf {s : State} (h : histWf s) (raw : Byte) : histWf (histStore raw s) := by
  simpa [histWf] using h

theorem advanceCursor_histWf {s : State} (h : histWf s) : histWf (advanceCursor s) := by
  refine ⟨h.1, ?_⟩
  have : 0 < s.build.n := by have := h.2; omega
  simpa using Nat.mod_lt _ this

theorem coldStart_histWf {s : State} (h : histWf s) (raw : Byte) : histWf (coldStart raw s) := by
  have : 0 < s.build.n := by have := h.2; omega
  simpa [histWf] using this

theorem steadyState_histWf {s : State} (h : histWf s) (raw : Byte) :
    histWf (steadyState raw s) := by
  have := advanceCursor_histWf (histStore_histWf h raw)
  simpa [histWf] using this

theorem resetEngine_histWf {s : State} (h : 0 < s.build.n) : histWf (resetEngine s) := by
  simpa [histWf] using h

theorem complete_histWf {s : State} (h : histWf s) : histWf (complete s) := by
  rcases complete_cases s with ⟨-, e⟩ | ⟨-, -, e⟩ | ⟨-, -, e⟩ <;> rw [e]
  · exact h
  · exact coldStart_histWf h _
  · exact steadyState_histWf h _

theorem seqStep_histWf {s : State} (h : histWf s) (k : Fin 38) : histWf (seqStep k s) := by
  by_cases hk : k = 37
  · subst hk
    rw [seqStep_complete]
    exact complete_histWf h
  · obtain ⟨h1, h2, -, -⟩ := seqStep_filter hk s
    simpa [histWf, h1, h2] using h

theorem offer_histWf {s : State} (h : histWf s) (op : Bit) : histWf (offer op s) := by
  unfold offer
  split
  · exact h
  · exact seqStep_histWf h _

theorem frameStep_histWf {s : State} (h : histWf s) (d : Byte) (k : Fin 38) :
    histWf (frameStep d k s) :=
  seqStep_histWf (s := { s with answer := some d }) h k

/-- Every event of every instruction keeps the form of the history. -/
theorem exec_histWf {i : Instr} {s t : State} (h : histWf s) (e : exec i s = .next t) :
    histWf t := by
  cases i with
  | acq => obtain ⟨-, rfl⟩ := execAcq_next_iff.1 e; exact offer_histWf h _
  | fread => obtain ⟨-, rfl⟩ := execFread_next_iff.1 e; exact offer_histWf h _
  | frame d =>
    obtain ⟨k, -, -, -, rfl⟩ := execFrame_next_iff.1 e
    exact frameStep_histWf h d k

theorem reset_histWf : histWf State.reset := by decide

end Sys2Proof.Laws
end

