-- ==== Sys2Proof/Laws/PerInstr.lean ====
section
/-! SUPPORT. Statements about every instruction, proved per constructor: the encoder answers only
legal encoded forms, and the command words are those of the host commands. -/

namespace Sys2Proof.Laws

/-- The encoded form of an instruction is legal; it is a command word exactly when a host can start
the instruction (30_encoding R50, R53, R57). -/
def EncodedForm.Statement (i : Instr) : Prop :=
  (encode i).wellFormed = true ∧
    (i.isHostCommand = true ↔ ∃ op : Bit, encode i = .cmd op)

theorem EncodedForm.acq : EncodedForm.Statement .acq := ⟨rfl, by simp [Instr.isHostCommand, encode]⟩

theorem EncodedForm.fread : EncodedForm.Statement .fread :=
  ⟨rfl, by simp [Instr.isHostCommand, encode]⟩

theorem EncodedForm.frame (d : Byte) : EncodedForm.Statement (.frame d) :=
  ⟨rfl, by simp [Instr.isHostCommand, encode]⟩

end Sys2Proof.Laws
end

