-- ==== Sys2Proof/Laws/Run.lean ====
section
/-! SUPPORT. Runs of the machine: one step more, two runs in a row, and the induction "kept by every
step, so kept by every run"; and what the running of a script and of one of its lines is. -/

namespace Sys2Proof.Laws

open Sys2Proof.Machine

/-- The first step of a run, for any machine. -/
theorem core_run_succ (M : Host.Core) (m : Nat) (s : M.State) :
    M.run (m + 1) s =
      match M.step s with
      | .next u => M.run m u
      | .fault f => .fault f
      | .refused r => .refused r := rfl

/-- A run of ticks is the host's run of the machine. -/
theorem stepRun_eq_run (m : Nat) (s : State) : stepRun m s = core.run m s := by
  induction m generalizing s with
  | zero => rfl
  | succ m ih =>
    refine Eq.trans ?_ (core_run_succ core m s).symm
    rw [stepRun]
    cases e : step s with
    | next t => rw [show core.step s = .next t from e]; exact ih t
    | fault f => cases f
    | refused r => rw [show core.step s = .refused r from e]; rfl

theorem stepRun_succ_of_next {m : Nat} {s t : State} (h : step s = .next t) :
    stepRun (m + 1) s = stepRun m t := by rw [stepRun, h]

/-- A run that reaches a state began with a step to some state and a run from there. -/
theorem stepRun_succ_next {m : Nat} {s t : State} (h : stepRun (m + 1) s = .next t) :
    ∃ u, step s = .next u ∧ stepRun m u = .next t := by
  rw [stepRun] at h
  cases e : step s with
  | next u => rw [e] at h; exact ⟨u, rfl, h⟩
  | fault f => cases f
  | refused r => rw [e] at h; cases h

theorem stepRun_add {a b : Nat} {s t : State} (h : stepRun a s = .next t) :
    stepRun (a + b) s = stepRun b t := by
  induction a generalizing s with
  | zero =>
    rw [stepRun] at h
    rw [Host.Outcome.next.inj h, Nat.zero_add]
  | succ a ih =>
    obtain ⟨u, hu, hr⟩ := stepRun_succ_next h
    rw [show a + 1 + b = (a + b) + 1 by omega, stepRun_succ_of_next hu]
    exact ih hr

/-- What every step keeps, every run keeps. -/
theorem stepRun_keeps {P : State → Prop} (hP : ∀ s t, P s → step s = .next t → P t) {m : Nat}
    {s t : State} (hs : P s) (h : stepRun m s = .next t) : P t := by
  induction m generalizing s with
  | zero =>
    rw [stepRun] at h
    exact Host.Outcome.next.inj h ▸ hs
  | succ m ih =>
    obtain ⟨u, hu, hr⟩ := stepRun_succ_next h
    exact ih (hP s u hs hu) hr

/-- One event more of an instruction. -/
theorem execRun_succ_of_next {m : Nat} {i : Instr} {s t : State} (h : exec i s = .next t) :
    execRun (m + 1) i s = execRun m i t := by
  rw [execRun, h]

/-- A run of events that reached a state goes on from there. -/
theorem execRun_add {a b : Nat} {i : Instr} {s t : State} (h : execRun a i s = .next t) :
    execRun (a + b) i s = execRun b i t := by
  induction a generalizing s with
  | zero =>
    rw [execRun] at h
    rw [Host.Outcome.next.inj h, Nat.zero_add]
  | succ a ih =>
    rw [show a + 1 + b = (a + b) + 1 by omega, execRun]
    rw [execRun] at h
    cases e : exec i s with
    | next u => rw [e] at h; exact ih h
    | fault f => cases f
    | refused r => rw [e] at h; cases h

/-- Lines have no error exactly when the first has none and, after it, the rest have none. -/
theorem firstErrorFrom_cons_eq_none {before : Bool} {left : Option Nat} {l : ScriptLine}
    {rest : List ScriptLine} :
    Script.firstErrorFrom before left (l :: rest) = none ↔
      l.error before left = none ∧
        Script.firstErrorFrom (l.resultStands before) (l.bytesLeft left) rest = none := by
  rw [Script.firstErrorFrom]
  cases l.error before left <;> simp

theorem script_wellFormed_iff {ls : List ScriptLine} :
    Script.wellFormed ls = true ↔ Script.firstError ls = none := Option.isNone_iff_eq_none

/-- A legal script is run line by line. -/
theorem runScript_of_wellFormed {ls : List ScriptLine} {s : State}
    (h : Script.wellFormed ls = true) : runScript ls s = runLines ls [] s := by
  rw [runScript, script_wellFormed_iff.1 h]

/-- What is no script is not run, and the error is named. -/
theorem runScript_of_error {ls : List ScriptLine} {s : State} {e : ScriptError}
    (h : Script.firstError ls = some e) : runScript ls s = .illFormed e := by
  rw [runScript, h]

/-- An operation line that reaches a state notes its result and goes on from there. -/
theorem runLines_op_of_next {c : Cmd} {rest : List ScriptLine} {results : List Byte} {s t : State}
    (h : execRun operationEvents (cmdInstr c) s = .next t) :
    runLines (.op c :: rest) results s = runLines rest (results ++ [t.result]) t := by
  rw [runLines, h]

/-- An operation that a reset cuts short notes no result. -/
theorem runLines_resetDuring_of_next {c : Cmd} {k : Fin 38} {rest : List ScriptLine}
    {results : List Byte} {s t : State} (h : execRun (1 + k.val) (cmdInstr c) s = .next t) :
    runLines (.resetDuring c k :: rest) results s = runLines rest results (resetEngine t) := by
  rw [runLines, h]

end Sys2Proof.Laws
end

