-- ==== Sys2Proof/Tests/Slice0.lean ====
section
/-! SUPPORT. The model's own tests: an ill-formed term for each check of WellFormed, words written out
from the encodings of spec 30_encoding, single events with the values of spec 95_test_vectors, and a
witness for the hypotheses of every statement. `test_witness_<Name>` speaks of `Obligations.<Name>`. -/

namespace Sys2Proof.Tests

open Sys2Proof.Machine Sys2Proof.Safety

/-! ### Helpers -/

/-- The state after, if there is one. -/
def after (o : Host.Outcome State Fault Refusal) : Option State :=
  match o with
  | .next t => some t
  | .fault _ => none
  | .refused _ => none

/-- The refusal, if it is one. -/
def why (o : Host.Outcome State Fault Refusal) : Option Refusal :=
  match o with
  | .next _ => none
  | .fault _ => none
  | .refused r => some r

/-- Tick levels of the host: reset, offer, command. -/
def tick (rst valid : Bool) (op : Bit) : HostInput :=
  { rst := rst, cmdValid := valid, cmdOp := op, foreign := false }

/-- The default build in front of step `k` of the operation `op`, the lines where the table has them. -/
def before (op : Bit) (k : Fin 38) : State :=
  { State.reset with
    seq := .step k, opreg := op, answer := some 0xA5,
    csN := (levelsDue (.step k)).csN, clk := (levelsDue (.step k)).clk,
    din := (levelsDue (.step k)).din }

/-- Step 37 of a FREAD with the history `h`, the cursor `c` and the raw sample `r`. -/
def completing (h : List Byte) (c : Nat) (r : Byte) : State :=
  { before 1 37 with hist := h, cur := c, init := true, shift := r }

/-! ### WellFormed: each check refuses its ill-formed term -/

theorem test_build_default : Config.reference.legal = true := by decide

/-- 00_scope R6: `N >= 1`. -/
theorem test_build_no_entries :
    ({ n := 0, accW := 16, tSettle := 1 } : Build).legal = false := by decide

/-- 00_scope R7: 11 bits hold 8 entries (2040 < 2048) and not 9 (2295). -/
theorem test_build_accumulator :
    ({ n := 8, accW := 11, tSettle := 1 } : Build).legal = true ∧
    ({ n := 9, accW := 11, tSettle := 1 } : Build).legal = false := by decide

/-- 00_scope R9: the pause is not zero. -/
theorem test_build_no_pause :
    ({ n := 8, accW := 16, tSettle := 0 } : Build).legal = false := by decide

/-- 30_encoding R59: a frame of ten slots. -/
theorem test_code_short : (Code.frame [1, 1, 0, 1, 1, 0, 0, 1, 0, 0]).wellFormed = false := by decide

/-- 30_encoding R58: the header `(1, 0, 0)` is never sent. -/
theorem test_code_header : (Code.frame [1, 0, 0, 1, 1, 0, 0, 1, 0, 0, 0]).wellFormed = false := by
  decide

/-- 30_encoding R57: FRAME is no host command. (Every `Instr` is well formed: it has no bad term.) -/
theorem test_frame_is_no_command : (Instr.frame 0).isHostCommand = false := by decide

/-- 30_encoding R61: `EXPECT` needs an operation on the line before. -/
theorem test_script_expect_first : Script.wellFormed [.expect 1, .op .acq] = false := by decide

/-- 30_encoding R61: `EXPECT` after a reset speaks of no operation. -/
theorem test_script_expect_after_reset :
    Script.wellFormed [.op .acq, .reset, .expect 0] = false := by decide

/-- 30_encoding R61: a `DEV` line gives bytes. -/
theorem test_script_dev_empty : Script.wellFormed [.dev [], .op .acq] = false := by decide

/-- 30_encoding R61: the result of the operation on the line before, and not on the one before that. -/
theorem test_script_expect_twice :
    Script.firstError [.op .acq, .expect 0, .expect 0] = some .expectWithoutOperation := by decide

/-- 30_encoding R61: "after the list is used up the script must give another `DEV`". -/
theorem test_script_dev_used_up :
    Script.firstError [.dev [200], .op .fread, .op .fread] = some .devUsedUp ∧
    Script.wellFormed [.dev [200], .op .fread, .dev [0], .op .fread] = true := by decide

/-- A frame that a reset cuts short at step 20 is a transaction; a command reset before step 0 is none. -/
theorem test_script_cut_transaction :
    Script.firstError [.dev [200], .resetDuring .fread 20, .op .fread] = some .devUsedUp ∧
    Script.wellFormed [.dev [200], .resetDuring .fread 0, .op .fread] = true := by decide

/-- 95 P6 has no DEV line: the converter is free. 95 P7 has comments between the ACQ and its EXPECT. -/
theorem test_script_free_and_comments :
    Script.wellFormed [.reset, .op .fread, .op .fread] = true ∧
    Script.wellFormed [.reset, .dev [0x3C], .op .acq, .comment "rejected", .expect 0x3C] = true := by
  decide

theorem test_script_good :
    Script.wellFormed [.dev [200, 0], .op .fread, .expect 200, .op .fread, .expect 175] = true := by
  decide

/-! ### Decoding: words written out from 30_encoding R50, R53 -/

/-- `op = 0`. -/
theorem test_decode_acq : decodeTableWord 8 0b0 = some .acq := by decide

/-- `op = 1`. -/
theorem test_decode_fread : decodeTableWord 8 0b1 = some .fread := by decide

/-- `1 1 0` and then 0xC8, no palindrome (95 section 2.8), most significant first. -/
theorem test_decode_frame :
    decodeTableWord 16 0b11011001000 = some (.frame 0xC8) ∧
    (decode (.frame [1, 1, 0, 1, 1, 0, 0, 1, 0, 0, 0])).toOption = some (.frame 0xC8) := by decide

/-- The header `(0, 1, 1)` and a word of twelve slots are refused. -/
theorem test_decode_refuses :
    decodeTableWord 16 0b01111001000 = none ∧ decodeTableWord 16 0b111011001000 = none := by decide

/-- Script encoding, the example of 30_encoding R60: `FREAD; FREAD; ACQ` is `1 1 0`. -/
theorem test_script_encoding : encodeScript [.op .fread, .op .fread, .op .acq] = [1, 1, 0] := by
  decide

/-! ### One event at a time: values of 95_test_vectors and of the rules' examples -/

/-- 95 section 2.2, first row: acceptance goes to step 0 and leaves the lines. -/
theorem test_acq_accepts :
    (after (exec .acq State.reset)).map (fun t => (t.seq, t.opreg, levels t)) =
      some (.step 0, 0, { csN := 1, clk := 0, din := 1 }) := by decide

/-- 95 section 2.2, last row: 0xA5 in SHIFT is the result, the filter as it was. -/
theorem test_acq_completes :
    (after (exec .acq { before 0 37 with shift := 0xA5 })).map
      (fun t => (t.seq, t.result, t.hist, t.init)) =
      some (.idle, 0xA5, [0, 0, 0, 0, 0, 0, 0, 0], false) := by decide

/-- 95 S4: cold start 200, then raw 0, gives 175. -/
theorem test_fread_smooths :
    (after (exec .fread (completing [200, 200, 200, 200, 200, 200, 200, 200] 0 0))).map
      (fun t => (t.result, t.cur, t.hist)) =
      some (175, 1, [0, 200, 200, 200, 200, 200, 200, 200]) := by decide

/-- 41_filter R84: seven 255s and one 254 give 254, and the cursor goes from 7 to 0. -/
theorem test_fread_truncates :
    (after (exec .fread (completing [255, 255, 255, 255, 255, 255, 255, 0] 7 254))).map
      (fun t => (t.result, t.cur)) = some (254, 0) := by decide

/-- 95 section 2.2, step 19: the third bit of 0xA5 takes SHIFT from 0x02 to 0x05. -/
theorem test_frame_samples :
    (after (exec (.frame 0xA5) { before 0 19 with shift := 0x02 })).map
      (fun t => (t.shift, t.seq, levels t)) =
      some (0x05, .step 20, { csN := 0, clk := 1, din := 1 }) := by decide

/-- 95 section 2.2, step 8: the third header bit takes DIN to 0, and a pause follows. -/
theorem test_frame_third_header_bit :
    (after (exec (.frame 0xA5) (before 0 8))).map (fun t => (levels t, t.ptmr)) =
      some ({ csN := 0, clk := 0, din := 0 }, 1) := by decide

/-- 95 V4: a reset at `SEQ = 20` idles the lines at once and clears SHIFT. -/
theorem test_reset_in_mid_frame :
    (after (step { before 1 20 with shift := 0x05, host := [tick true false 0] })).map
      (fun t => (levels t, t.seq, t.shift, t.result)) =
      some (idleLevels, .idle, 0, 0) := by decide

/-! ### Witnesses for the hypotheses of the statements -/

/-- The invariant holds in front of every step, so every statement about a step speaks of a state. -/
theorem test_inv_before_every_step : ∀ k : Fin 38, Inv (before 0 k) ∧ Inv (before 1 k) := by decide

theorem test_witness_EncodeOfDecode :
    (decode (.cmd 1)).toOption = some .fread ∧
    (decode (.frame [1, 1, 0, 0, 0, 0, 0, 0, 0, 0, 1])).toOption = some (.frame 1) := by decide

theorem test_witness_DecoderRefusals :
    ([1, 1, 0] : List Bit).length ≠ 11 ∧
    ([1, 0, 0, 0, 0, 0, 0, 0, 0, 0, 0] : List Bit).length = 11 ∧
    ([1, 0, 0, 0, 0, 0, 0, 0, 0, 0, 0] : List Bit).take 3 ≠ [1, 1, 0] := by decide

theorem test_witness_AssembleIsABijection :
    ([1, 1, 0, 0, 1, 0, 0, 0] : List Bit).length = 8 := by decide

theorem test_witness_EveryStepFollowsTheTable :
    Instr.fread.isHostCommand = true ∧ Inv (before 1 0) ∧ (before 1 0).seq = .step 0 ∧
    Inv (before 1 37) ∧ (before 1 37).seq = .step 37 := by decide

theorem test_witness_AcceptanceStartsTheOperation :
    State.reset.build.legal = true ∧ State.reset.seq = .idle := by decide

theorem test_witness_StartStepsSelectTheConverter :
    Instr.acq.isHostCommand = true ∧ Inv (before 0 0) ∧ (before 0 0).seq = .step 0 ∧
    Inv (before 0 1) ∧ (before 0 1).seq = .step 1 := by decide

theorem test_witness_HeaderSetupDrivesDin :
    Instr.acq.isHostCommand = true ∧ Inv (before 0 2) ∧ (before 0 2).seq = .step 2 ∧
    Inv (before 0 5) ∧ (before 0 5).seq = .step 5 ∧
    Inv (before 0 8) ∧ (before 0 8).seq = .step 8 := by decide

theorem test_witness_HeaderRiseLatchesTheBit :
    Instr.acq.isHostCommand = true ∧ Inv (before 0 3) ∧ (before 0 3).seq = .step 3 ∧
    Inv (before 0 6) ∧ (before 0 6).seq = .step 6 ∧
    Inv (before 0 9) ∧ (before 0 9).seq = .step 9 := by decide

theorem test_witness_HeaderFallAndRelease :
    Instr.fread.isHostCommand = true ∧ Inv (before 1 4) ∧ (before 1 4).seq = .step 4 ∧
    Inv (before 1 7) ∧ (before 1 7).seq = .step 7 ∧
    Inv (before 1 10) ∧ (before 1 10).seq = .step 10 ∧
    Inv (before 1 11) ∧ (before 1 11).seq = .step 11 := by decide

theorem test_witness_ResponseRise :
    Inv (before 0 12) ∧ (before 0 12).seq = .step 12 ∧ (12 : Fin 38).val = 12 + 3 * (0 : Fin 8).val ∧
    Inv (before 0 33) ∧ (before 0 33).seq = .step 33 ∧
    (33 : Fin 38).val = 12 + 3 * (7 : Fin 8).val := by decide

theorem test_witness_ResponseSample :
    Inv (before 0 13) ∧ (before 0 13).seq = .step 13 ∧ (before 0 13).answer = some 0xA5 ∧
    (13 : Fin 38).val = 13 + 3 * (0 : Fin 8).val ∧
    Inv { before 0 34 with answer := none } ∧ (34 : Fin 38).val = 13 + 3 * (7 : Fin 8).val := by
  decide

theorem test_witness_ResponseFall :
    Inv (before 0 14) ∧ (before 0 14).seq = .step 14 ∧ (14 : Fin 38).val = 14 + 3 * (0 : Fin 8).val ∧
    Inv (before 0 35) ∧ (before 0 35).seq = .step 35 ∧
    (35 : Fin 38).val = 14 + 3 * (7 : Fin 8).val ∧
    Inv (before 0 36) ∧ Inv (before 0 37) ∧ Inv State.reset ∧ State.reset.seq = .idle := by decide

theorem test_witness_EndCsDeselects :
    Instr.acq.isHostCommand = true ∧ Inv (before 0 36) ∧ (before 0 36).seq = .step 36 := by decide

theorem test_witness_CompleteAcqReturnsTheSample :
    Inv (before 0 37) ∧ (before 0 37).seq = .step 37 ∧ (before 0 37).opreg = 0 ∧
    (hostInput (before 0 37)).rst = false ∧ (hostInput (before 0 37)).foreign = false ∧
    (before 0 37).ptmr = 0 := by decide

theorem test_witness_CompleteFreadColdStart :
    (before 1 37).build.legal = true ∧ (before 1 37).seq = .step 37 ∧ (before 1 37).opreg = 1 ∧
    (before 1 37).init = false := by decide

theorem test_witness_CompleteFreadSteadyState :
    (completing [1, 2, 3, 4, 5, 6, 7, 8] 7 9).build.legal = true ∧
    histWf (completing [1, 2, 3, 4, 5, 6, 7, 8] 7 9) ∧
    (completing [1, 2, 3, 4, 5, 6, 7, 8] 7 9).seq = .step 37 ∧
    (completing [1, 2, 3, 4, 5, 6, 7, 8] 7 9).opreg = 1 ∧
    (completing [1, 2, 3, 4, 5, 6, 7, 8] 7 9).init = true := by decide

theorem test_witness_FreadIsFilterStep :
    (completing [1, 2, 3, 4, 5, 6, 7, 8] 0 9).build.legal = true ∧
    histWf (completing [1, 2, 3, 4, 5, 6, 7, 8] 0 9) ∧
    (completing [1, 2, 3, 4, 5, 6, 7, 8] 0 9).seq = .step 37 ∧
    (completing [1, 2, 3, 4, 5, 6, 7, 8] 0 9).opreg = 1 := by decide

theorem test_witness_SumNeverOverflows :
    Config.reference.legal = true ∧ (List.replicate 8 (255 : Byte)).length = Config.reference.n ∧
    Config.reference.accW = 16 ∧
    ({ n := 257, accW := 16, tSettle := 1 } : Build).legal = true := by decide

theorem test_witness_MeanIsTruncatedAndBounded :
    Config.reference.legal = true ∧
    ([9, 255, 0, 9, 9, 9, 9, 9] : List Byte).length = Config.reference.n ∧
    (∀ e ∈ ([9, 255, 0, 9, 9, 9, 9, 9] : List Byte), (0 : Byte) ≤ e ∧ e ≤ 255) ∧
    Config.reference.n = 2 ^ 3 := by decide

theorem test_witness_CursorCountsModuloN :
    histWf (completing [1, 2, 3, 4, 5, 6, 7, 8] 0 9) ∧
    histWf (completing [1, 2, 3, 4, 5, 6, 7, 8] 7 9) := by decide

theorem test_witness_RingOverwrite :
    1 ≤ 2 ∧ ([5, 5] : List Byte).length = 2 ∧ ([6, 7] : List Byte).length = 2 := by decide

theorem test_witness_WhichEntryIsReplaced :
    (filterRun 2 { h := [9, 9], c := 1, f := false } 0 [5, 6, 7]).1 =
      { h := [6, 7], c := 0, f := true } ∧ 1 ≤ 2 := by decide

theorem test_witness_WindowOfTheMean :
    1 ≤ 8 ∧ ([0] : List Byte) ≠ [] ∧
    (filterRun 8 { h := [], c := 0, f := false } 0 [200, 0]).2 = 175 := by decide

theorem test_witness_HistoryHoldsOnlySamples :
    1 ≤ 2 ∧
    (6 : Byte) ∈ (filterRun 2 { h := [9, 9], c := 1, f := false } 0 [5, 6]).1.h := by decide

theorem test_witness_FrameEventFollowsTheTable :
    Inv (before 0 0) ∧ (before 0 0).seq = .step 0 ∧ (0 : Fin 38) ≠ 37 ∧
    Inv (before 0 13) ∧ (13 : Fin 38).val = 13 + 3 * (0 : Fin 8).val ∧
    Inv (before 0 34) ∧ (34 : Fin 38).val = 13 + 3 * (7 : Fin 8).val ∧
    Inv (before 0 36) ∧ (36 : Fin 38) ≠ 37 ∧ ∀ j : Fin 8, (36 : Fin 38).val ≠ 13 + 3 * j.val := by
  decide

theorem test_witness_FrameStopsOutsideAFrame :
    State.reset.seq = .idle ∧ (before 0 37).seq = .step 37 ∧
    why (exec (.frame 0) State.reset) = some .noFrameInProgress := by decide

theorem test_witness_FrameIsEmittedByBothOperations :
    (before 0 0).seq = .step 0 ∧ { before 0 0 with oracle := [0xA5] }.oracle.head? = some 0xA5 ∧
    (before 0 36).seq = .step 36 ∧ (36 : Fin 38) ≠ 37 ∧ (before 0 36).answer = some 0xA5 := by decide

theorem test_witness_FrameCompletes :
    (before 0 0).build.legal = true ∧ (before 0 0).seq = .step 0 := by decide

theorem test_witness_AcqCompletes :
    State.reset.build.legal = true ∧ State.reset.seq = .idle := by decide

theorem test_witness_FreadCompletes :
    State.reset.build.legal = true ∧ histWf State.reset ∧ State.reset.seq = .idle := by decide

theorem test_witness_OperationLineTrace :
    Instr.fread.isHostCommand = true ∧ State.reset.build.legal = true ∧ State.reset.seq = .idle ∧
    levels State.reset = idleLevels := by decide

theorem test_witness_TransactionCounts :
    Instr.acq.isHostCommand = true ∧ State.reset.build.legal = true ∧ State.reset.seq = .idle ∧
    levels State.reset = idleLevels ∧ (stepWrite (stepKind 1)).isSome = true := by decide

/-- Both commands; 68 ticks for `T_SETTLE = 1`, of which 70_reset R121 counts 67 after acceptance. -/
theorem test_witness_OperationTakesItsTicks :
    State.reset.build.legal = true ∧ histWf State.reset ∧ State.reset.seq = .idle ∧
    State.reset.ptmr = 0 ∧ (tick false true 0).cmdValid = true ∧
    undisturbed (operationTicks State.reset.build) [tick false true 0, tick false true 1] = true ∧
    undisturbed (operationTicks State.reset.build) [tick false true 1] = true ∧
    operationTicks State.reset.build = 1 + 67 := by decide

theorem test_witness_ScriptFeedsTheFilter :
    State.reset.build.legal = true ∧ histWf State.reset ∧ State.reset.seq = .idle := by decide

/-- One byte for one operation; two operations for one byte; a list that is used to its last byte. -/
theorem test_witness_DevAnswersEverySample :
    ([200] : List Byte) ≠ [] ∧ ([200] : List Byte).length < [Cmd.fread, Cmd.acq].length ∧
    State.reset.build.legal = true ∧ histWf State.reset ∧ State.reset.seq = .idle ∧
    Script.wellFormed [.dev [200, 0], .resetDuring .fread 20, .op .acq, .expect 0] = true := by decide

theorem test_witness_AcqFrame :
    State.reset.seq = .idle ∧ (after (exec .acq State.reset)).isSome = true ∧
    (before 0 37).opreg = 0 ∧ (after (exec .acq (before 0 37))).isSome = true := by decide

theorem test_witness_FreadFrame :
    State.reset.seq = .idle ∧ (after (exec .fread State.reset)).isSome = true ∧
    (completing [1, 2, 3, 4, 5, 6, 7, 8] 7 9).opreg = 1 ∧
    (completing [1, 2, 3, 4, 5, 6, 7, 8] 7 9).init = true ∧
    (after (exec .fread (completing [1, 2, 3, 4, 5, 6, 7, 8] 7 9))).isSome = true := by decide

theorem test_witness_FrameFrame : (after (exec (.frame 0xC8) (before 0 13))).isSome = true := by
  decide

/-- An offer to an idle engine; a step in flight; nothing offered. -/
theorem test_witness_StepRunsTheDecodedInstruction :
    State.reset.build.legal = true ∧ State.reset.ptmr = 0 ∧ State.reset.seq = .idle ∧
    (hostInput State.reset).rst = false ∧ contended State.reset = false ∧
    (hostInput State.reset).cmdValid = false ∧
    (hostInput { State.reset with host := [tick false true 1] }).cmdValid = true ∧
    contended { State.reset with host := [tick false true 1] } = false ∧
    (decode (.cmd 1)).toOption = some .fread ∧
    (before 1 5).seq = .step 5 ∧ (before 1 5).ptmr = 0 ∧ contended (before 1 5) = false := by decide

theorem test_witness_PlacedWordRunsNext :
    State.reset.build.legal = true ∧
    (after (step (State.reset.withFetchWord 16 0b11011001000))).map (fun t => (t.seq, t.answer)) =
      some (.step 1, some 0xC8) := by decide

theorem test_witness_ResetBeatsEverything :
    (before 1 20).build.legal = true ∧
    (hostInput { before 1 20 with host := [tick true true 1] }).rst = true ∧
    (after (step { before 1 20 with host := [tick true true 1] })).isSome = true := by decide

theorem test_witness_PauseChangesNothing :
    (before 1 20).build.legal = true ∧ (hostInput { before 1 20 with ptmr := 1 }).rst = false ∧
    contended { before 1 20 with ptmr := 1 } = false ∧ { before 1 20 with ptmr := 1 }.ptmr ≠ 0 := by
  decide

theorem test_witness_OfferWhileBusyChangesNothing :
    busy { before 1 20 with host := [tick false false 0] } = true ∧
    { before 1 20 with host := [tick false false 0] }.host = tick false false 0 :: [] := by decide

theorem test_witness_CommandDuringCompletionWaits :
    Inv { before 0 37 with host := [tick false true 0, tick false true 1] } ∧
    { before 0 37 with host := [tick false true 0, tick false true 1] }.ptmr = 0 ∧
    (tick false true 0).rst = false ∧ (tick false true 0).foreign = false ∧
    (tick false true 0).cmdValid = true ∧
    (tick false true 1).rst = false ∧ (tick false true 1).cmdValid = true := by decide

theorem test_witness_PortSignals :
    commandAccepted { State.reset with host := [tick false true 1] } = true ∧
    busy (before 0 5) = true ∧ (portView (before 0 37)).rspValid = true := by decide

theorem test_witness_WhenTheMachineStops :
    why (step { State.reset with build := { n := 0, accW := 16, tSettle := 1 } }) =
      some .illegalCapacity ∧
    why (step { State.reset with build := { n := 258, accW := 16, tSettle := 1 } }) =
      some .illegalAccumulator ∧
    why (step { State.reset with build := { n := 8, accW := 16, tSettle := 0 } }) =
      some .illegalSettle ∧
    why (step { before 0 0 with host := [{ tick false false 0 with foreign := true }] }) =
      some .linesContended ∧
    why (step { before 0 37 with ptmr := 1, host := [{ tick false false 0 with foreign := true }] }) =
      some .linesContended ∧
    why (step { before 0 37 with host := [{ tick false false 0 with foreign := true }] }) =
      some .linesContended ∧
    (after (step { State.reset with
      host := [{ tick false false 0 with foreign := true }] })).isSome = true := by decide

theorem test_witness_InvariantKept :
    Inv (before 1 36) ∧ (after (step (before 1 36))).isSome = true := by decide

theorem test_witness_InvariantAtReset :
    ({ n := 1, accW := 8, tSettle := 3 } : Build).legal = true := by decide

theorem test_witness_IdleLinesOnEveryRun :
    Inv (before 1 37) ∧ (after (stepRun 1 (before 1 37))).map (·.seq) = some .idle ∧
    (after (stepRun 1 (before 1 0))).map (·.seq) = some (.step 1) ∧
    (after (stepRun 1 (before 1 1))).map (·.seq) = some (.step 2) := by decide

theorem test_witness_NeverStuck :
    (before 1 20).build.legal = true ∧ (hostInput (before 1 20)).foreign = false := by decide

theorem test_witness_SequencerMoves :
    (after (step { State.reset with host := [tick false true 1] })).map (·.seq) = some (.step 0) ∧
    (after (step (before 1 37))).map (·.seq) = some .idle ∧
    (after (step { before 1 5 with ptmr := 1 })).map (·.seq) = some (.step 5) := by decide

theorem test_witness_WhatChangesTheFilter :
    (after (step (completing [1, 2, 3, 4, 5, 6, 7, 8] 7 9))).map (·.cur) = some 0 ∧
    { completing [1, 2, 3, 4, 5, 6, 7, 8] 7 9 with host := [tick true false 0] }.init = true ∧
    (after (step { completing [1, 2, 3, 4, 5, 6, 7, 8] 7 9 with
      host := [tick true false 0] })).map (·.init) = some false := by decide

theorem test_witness_AtMostOneLineChanges :
    (hostInput (before 1 36)).rst = false ∧ (after (step (before 1 36))).map (·.csN) = some 1 := by
  decide

theorem test_witness_DinStableWhileClockHigh :
    Inv (before 1 10) ∧ (before 1 10).clk = 1 ∧ (hostInput (before 1 10)).rst = false ∧
    (after (step (before 1 10))).isSome = true := by decide

/-- Other answers, another operation, another filter; the same lines, position and build. -/
theorem test_witness_OutputsIndependentOfTheInput :
    levels (before 0 13) = levels { completing [1, 2, 3, 4, 5, 6, 7, 8] 7 9 with
      seq := .step 13, csN := 0, clk := 1 } ∧
    (before 0 13).ptmr = (completing [1, 2, 3, 4, 5, 6, 7, 8] 7 9).ptmr ∧
    (before 0 13).build = (completing [1, 2, 3, 4, 5, 6, 7, 8] 7 9).build ∧
    (after (stepRun 2 (before 0 13))).isSome = true := by decide

theorem test_witness_ColdStartFollowsEveryReset : (before 1 20).build.legal = true := by decide

end Sys2Proof.Tests
end

section
/-! PROOFS of the family 00_scope: when the machine has no meaning. -/

namespace Sys2Proof.Refusals

open Sys2Proof.Machine Sys2Proof.Laws

/-! ### Which constraint an illegal build is refused under -/

theorem buildRefusal_of_capacity_zero {b : Build} (hn : b.n = 0) :
    buildRefusal b = some .illegalCapacity := if_pos hn

theorem buildRefusal_of_narrow_accumulator {b : Build} (hn : b.n ≠ 0)
    (hw : 2 ^ b.accW ≤ 255 * b.n) : buildRefusal b = some .illegalAccumulator := by
  rw [buildRefusal, if_neg hn, if_pos hw]

theorem buildRefusal_of_settle_zero {b : Build} (hn : b.n ≠ 0) (hw : 255 * b.n < 2 ^ b.accW)
    (ht : b.tSettle = 0) : buildRefusal b = some .illegalSettle := by
  rw [buildRefusal, if_neg hn, if_neg (Nat.not_le.2 hw), if_pos ht]

theorem exists_buildRefusal_iff {b : Build} :
    (∃ r, buildRefusal b = some r) ↔ b.legal = false := by
  rw [← Option.ne_none_iff_exists', Ne, buildRefusal_none_iff, Bool.not_eq_true]

/-! ### When a tick, and so a step, is refused -/

/-- The two causes of a refusal in the order the tick looks for them: the build, then, unless a reset
comes first, the contention of the lines. -/
theorem tickKind_stop_iff {s : State} {r : Refusal} :
    tickKind s = .stop r ↔
      buildRefusal s.build = some r ∨
        (s.build.legal = true ∧ (hostInput s).rst = false ∧ contended s = true ∧
          r = .linesContended) := by
  rw [← buildRefusal_none_iff]
  unfold tickKind
  cases buildRefusal s.build with
  | some r' => simp
  | none =>
    cases (hostInput s).rst with
    | true => simp
    | false =>
      cases contended s with
      | true => simp [eq_comm]
      | false =>
        by_cases hp : s.ptmr = 0
        · cases currentInstr s <;> simp [hp]
        · simp [hp]

/-- A tick runs an instruction only on a legal build, and the one that is current. -/
theorem legal_and_current_of_run {s : State} {i : Instr} (h : tickKind s = .run i) :
    s.build.legal = true ∧ currentInstr s = some i := by
  have hc := tickKind_cases s
  simp only [h, reduceCtorEq, false_and, exists_false, false_or, TickKind.run.injEq] at hc
  obtain ⟨hb, -, -, -, j, rfl, hj⟩ := hc
  exact ⟨hb, hj⟩

/-- The event of a run tick is never refused. -/
theorem exec_next_of_run {s : State} {i : Instr} (h : tickKind s = .run i) :
    ∃ t, exec i (takeInput s) = .next t := by
  obtain ⟨hb, hi⟩ := legal_and_current_of_run h
  obtain ⟨op, e⟩ := exec_command (s := takeInput s) (currentInstr_eq hi) hb
  exact ⟨_, e⟩

/-- A step is refused exactly when its tick stops: no refusal comes from the instruction it runs. -/
theorem step_refused_iff {s : State} {r : Refusal} :
    step s = .refused r ↔ tickKind s = .stop r := by
  rcases step_cases s with ⟨r', hk, e⟩ | ⟨hk, e⟩ | ⟨hk, e⟩ | ⟨hk, e⟩ | ⟨i, hk, e⟩
  · simp [hk, e]
  · simp [hk, e]
  · simp [hk, e]
  · simp [hk, e]
  · obtain ⟨t, ht⟩ := exec_next_of_run hk
    simp [hk, e, ht]

theorem step_refused_of_buildRefusal {s : State} {r : Refusal}
    (h : buildRefusal s.build = some r) : step s = .refused r :=
  step_refused_iff.2 (tickKind_stop_iff.2 (.inl h))

theorem step_refused_of_contended {s : State} (hb : s.build.legal = true)
    (hr : (hostInput s).rst = false) (hc : contended s = true) :
    step s = .refused .linesContended :=
  step_refused_iff.2 (tickKind_stop_iff.2 (.inr ⟨hb, hr, hc, rfl⟩))

theorem exists_step_refused_iff {s : State} :
    (∃ r, step s = .refused r) ↔
      s.build.legal = false ∨ ((hostInput s).rst = false ∧ contended s = true) := by
  constructor
  · rintro ⟨r, h⟩
    rcases tickKind_stop_iff.1 (step_refused_iff.1 h) with hb | ⟨-, hr, hc, -⟩
    · exact .inl (exists_buildRefusal_iff.1 ⟨r, hb⟩)
    · exact .inr ⟨hr, hc⟩
  · intro h
    cases hb : s.build.legal with
    | false =>
      obtain ⟨r, hr⟩ := exists_buildRefusal_iff.2 hb
      exact ⟨r, step_refused_of_buildRefusal hr⟩
    | true =>
      obtain ⟨hr, hc⟩ := h.resolve_left (by simp [hb])
      exact ⟨_, step_refused_of_contended hb hr hc⟩

/-- Settles O49: a step is refused exactly when its tick stops, and a tick stops for the first
constraint the build breaks or, on a legal build without reset, for contended lines. -/
theorem whenTheMachineStops : Obligations.WhenTheMachineStops := by
  intro s
  refine ⟨?_, ?_, ?_, ?_, ?_⟩
  · rw [exists_step_refused_iff, contended_iff, and_comm (a := s.seq ≠ .idle)]
  · exact fun hn => step_refused_of_buildRefusal (buildRefusal_of_capacity_zero hn)
  · exact fun hn hw => step_refused_of_buildRefusal (buildRefusal_of_narrow_accumulator hn hw)
  · exact fun hn hw ht => step_refused_of_buildRefusal (buildRefusal_of_settle_zero hn hw ht)
  · intro hb hr hf hbusy
    exact step_refused_of_contended hb hr (by rw [contended, hbusy, hf, Bool.and_self])

end Sys2Proof.Refusals
end

section
/-! PROOFS of the family 10_state: what one step can do, the invariant and what follows from it, and
what each step and each FREAD leaves unchanged. -/

namespace Sys2Proof.StateRules

open Sys2Proof.Machine Sys2Proof.Safety Sys2Proof.Laws

/-! ### What a step that goes on can do -/

/-- The five things a step of a legal build can do to `s`, each with its guard and the state it leaves
(60_exceptions R98, 10_state R17). -/
inductive Move (s : State) : State → Prop where
  | reset (hr : (hostInput s).rst = true) : Move s (resetEngine (takeInput s))
  | pause (hr : (hostInput s).rst = false) (hc : contended s = false) (hp : s.ptmr ≠ 0) :
      Move s (waitTick (takeInput s))
  | quiet (hr : (hostInput s).rst = false) (hp : s.ptmr = 0) (hq : s.seq = .idle)
      (hv : (hostInput s).cmdValid = false) : Move s (takeInput s)
  | accept (hr : (hostInput s).rst = false) (hp : s.ptmr = 0) (hq : s.seq = .idle)
      (hv : (hostInput s).cmdValid = true) :
      Move s (Machine.accept (hostInput s).cmdOp (takeInput s))
  | perform (k : Fin 38) (hr : (hostInput s).rst = false) (hc : contended s = false)
      (hp : s.ptmr = 0) (hq : s.seq = .step k) : Move s (seqStep k (takeInput s))

theorem exec_decodeCmd (op : Bit) (s : State) :
    exec (decodeCmd op) s = onLegalBuild s.build (offer op s) := by
  have h : op = 0 ∨ op = 1 := by decide +revert
  rcases h with rfl | rfl <;> rfl

theorem currentInstr_step {s : State} {k : Fin 38} (h : s.seq = .step k) :
    currentInstr s = some (decodeCmd s.opreg) := by simp [currentInstr, h]

theorem currentInstr_idle {s : State} (h : s.seq = .idle) :
    currentInstr s =
      if (hostInput s).cmdValid then some (decodeCmd (hostInput s).cmdOp) else none := by
  simp [currentInstr, h]

/-- The event of the current instruction: an idle engine accepts the command offered, a busy one
performs its step. -/
theorem move_of_currentInstr {s t : State} {i : Instr} (hr : (hostInput s).rst = false)
    (hc : contended s = false) (hp : s.ptmr = 0) (hi : currentInstr s = some i)
    (h : exec i (takeInput s) = .next t) : Move s t := by
  cases hq : s.seq with
  | step k =>
    obtain rfl := Option.some.inj ((currentInstr_step hq).symm.trans hi)
    obtain ⟨-, rfl⟩ := onLegalBuild_next_iff.1 (exec_decodeCmd _ _ ▸ h)
    rw [offer_step (show (takeInput s).seq = .step k from hq)]
    exact .perform k hr hc hp hq
  | idle =>
    rw [currentInstr_idle hq] at hi
    cases hv : (hostInput s).cmdValid with
    | false => simp [hv] at hi
    | true =>
      obtain rfl : decodeCmd (hostInput s).cmdOp = i := by simpa [hv] using hi
      obtain ⟨-, rfl⟩ := onLegalBuild_next_iff.1 (exec_decodeCmd _ _ ▸ h)
      rw [offer_idle (show (takeInput s).seq = .idle from hq)]
      exact .accept hr hp hq hv

theorem idle_of_currentInstr_none {s : State} (h : currentInstr s = none) :
    s.seq = .idle ∧ (hostInput s).cmdValid = false := by
  cases hq : s.seq with
  | step k => simp [currentInstr_step hq] at h
  | idle => simpa [currentInstr_idle hq] using h

/-- Every step that goes on is one of the moves, on a legal build. -/
theorem step_next_move {s t : State} (h : step s = .next t) : s.build.legal = true ∧ Move s t := by
  rcases tickKind_cases s with ⟨r, hk⟩ | ⟨hk, hb, hr⟩ | ⟨hk, hb, hr, hc, hp⟩ |
    ⟨hb, hr, hc, hp, ⟨hk, hi⟩ | ⟨i, hk, hi⟩⟩ <;> simp only [step, hk] at h
  · cases h
  · cases h
    exact ⟨hb, .reset hr⟩
  · cases h
    exact ⟨hb, .pause hr hc hp⟩
  · cases h
    obtain ⟨hq, hv⟩ := idle_of_currentInstr_none hi
    exact ⟨hb, .quiet hr hp hq hv⟩
  · exact ⟨hb, move_of_currentInstr hr hc hp hi h⟩

/-- No move touches the build, and each uses up this tick's host levels. -/
theorem Move.surroundings {s t : State} (m : Move s t) :
    t.build = s.build ∧ t.host = s.host.tail := by
  cases m <;> simp

theorem nextSeq_of_ne {k : Fin 38} (hk : k ≠ 37) : nextSeq k = .step (k + 1) :=
  if_neg fun e => hk (Fin.ext e)

/-! ### The parts of the invariant a performed step moves -/

theorem coldCursor_complete {s : State} (h : coldCursor s) : coldCursor (complete s) := by
  rcases complete_cases s with ⟨-, e⟩ | ⟨-, -, e⟩ | ⟨-, hi, e⟩ <;> rw [e]
  · exact h
  · exact fun _ => rfl
  · intro h'
    simp [hi] at h'

theorem coldCursor_seqStep {s : State} (h : coldCursor s) (k : Fin 38) :
    coldCursor (seqStep k s) := by
  by_cases hk : k = 37
  · subst hk
    exact coldCursor_complete h
  · obtain ⟨-, hc, hi, -⟩ := seqStep_filter hk s
    rwa [coldCursor, hc, hi]

/-- The levels `l` after the write `w` of a step, if it makes one. -/
def driveLevels (w : Option (Line × Bit)) (l : Levels) : Levels :=
  match w with
  | none => l
  | some (.csN, b) => { l with csN := b }
  | some (.clk, b) => { l with clk := b }
  | some (.din, b) => { l with din := b }

theorem levels_writeLine (w : Option (Line × Bit)) (s : State) :
    levels (writeLine w s) = driveLevels w (levels s) := by
  rcases w with _ | ⟨_ | _ | _, b⟩ <;> rfl

/-- The column "levels after" of every row is its "write" applied to the levels due before it, and is
what is due at the next position (40_acquisition R63). -/
theorem driveLevels_levelsDue : ∀ k : Fin 38,
    driveLevels (stepWrite (stepKind k)) (levelsDue (.step k)) = levelsDue (nextSeq k) := by
  decide

theorem linesDue_seqStep {s : State} {k : Fin 38} (hq : s.seq = .step k) (h : linesDue s) :
    linesDue (seqStep k s) := by
  rw [linesDue, seqStep_levels, levels_writeLine, h, hq, seqStep_seq, driveLevels_levelsDue]

/-- A pause is due at a position exactly when the step before it starts one (40_acquisition R75). -/
theorem pauseDue_nextSeq : ∀ k : Fin 38, pauseDue (nextSeq k) = stepPause (stepKind k) := by
  decide

theorem pauseWf_seqStep (k : Fin 38) (s : State) : pauseWf (seqStep k s) := by
  simp [pauseWf, pauseDue_nextSeq]

/-! ### `SHIFT` holds only the bits of this frame (10_state R19) -/

theorem toNat_shiftIn (s : Byte) (d : Bit) :
    (shiftIn s d).toNat = (2 * s.toNat + d.toNat) % 256 := by
  have hd := d.isLt
  simp only [shiftIn, BitVec.toNat_append, BitVec.extractLsb'_toNat, Nat.shiftRight_zero]
  rw [← Nat.shiftLeft_add_eq_or_of_lt hd, Nat.shiftLeft_eq]
  omega

theorem toNat_shiftIn_lt {s : Byte} {n : Nat} (h : s.toNat < 2 ^ n) (d : Bit) :
    (shiftIn s d).toNat < 2 ^ (n + 1) := by
  have hd := d.isLt
  rw [toNat_shiftIn]
  omega

theorem seqStep_shift (k : Fin 38) (s : State) :
    (seqStep k s).shift = (stepAction (stepKind k) s).shift := by
  simp [seqStep]

/-- Only START-CS and a sample write `SHIFT` (10_state R19). -/
theorem stepAction_shift_cases (a : StepKind) (s : State) :
    (a = .startCs ∧ (stepAction a s).shift = 0) ∨
    (∃ j, a = .rspSample j ∧ (stepAction a s).shift = shiftIn s.shift (pinRead j s)) ∨
    (a ≠ .startCs ∧ (stepAction a s).shift = s.shift) := by
  cases a <;> simp [stepAction]

theorem samplesBefore_succ_of_sample : ∀ (k : Fin 38) (j : Fin 8),
    stepKind k = .rspSample j → samplesBefore (k + 1) = samplesBefore k + 1 := by
  decide

theorem samplesBefore_le_succ : ∀ k : Fin 38, k ≠ 37 → samplesBefore k ≤ samplesBefore (k + 1) := by
  decide

theorem shiftDue_idle {s : State} (h : s.seq = .idle) : shiftDue s = true := by
  simp [shiftDue, h]

theorem shiftDue_step_iff {s : State} {k : Fin 38} (h : s.seq = .step k) :
    shiftDue s = true ↔ k = 0 ∨ s.shift.toNat < 2 ^ samplesBefore k := by
  simp [shiftDue, h]

theorem seqStep_shift_lt {s : State} {k : Fin 38} (hk : k ≠ 37)
    (h : k = 0 ∨ s.shift.toNat < 2 ^ samplesBefore k) :
    (seqStep k s).shift.toNat < 2 ^ samplesBefore (k + 1) := by
  have hb : stepKind k ≠ .startCs → s.shift.toNat < 2 ^ samplesBefore k := fun ha =>
    h.resolve_left fun e => ha ((stepKind_startCs_iff k).2 e)
  rw [seqStep_shift]
  rcases stepAction_shift_cases (stepKind k) s with ⟨-, e⟩ | ⟨j, ha, e⟩ | ⟨ha, e⟩ <;> rw [e]
  · exact Nat.two_pow_pos _
  · rw [samplesBefore_succ_of_sample k j ha]
    exact toNat_shiftIn_lt (hb (by simp [ha])) _
  · exact (hb ha).trans_le (Nat.pow_le_pow_right (by decide) (samplesBefore_le_succ k hk))

theorem shiftDue_seqStep {s : State} {k : Fin 38} (hq : s.seq = .step k) (h : shiftDue s = true) :
    shiftDue (seqStep k s) = true := by
  by_cases hk : k = 37
  · exact shiftDue_idle (by rw [hk]; rfl)
  · exact (shiftDue_step_iff (nextSeq_of_ne hk)).2
      (.inr (seqStep_shift_lt hk ((shiftDue_step_iff hq).1 h)))

/-! ### Every move keeps the invariant -/

theorem inv_resetEngine {s : State} (hb : s.build.legal = true) (hn : 0 < s.build.n) :
    Inv (resetEngine s) :=
  ⟨hb, resetEngine_histWf hn, fun _ => rfl, rfl, Nat.zero_le _, rfl⟩

theorem inv_waitTick {s : State} (h : Inv s) : Inv (waitTick s) := by
  obtain ⟨hb, hw, hc, hl, hp, hs⟩ := h
  exact ⟨hb, hw, hc, hl, (Nat.sub_le _ _).trans hp, hs⟩

theorem inv_accept {s : State} (h : Inv s) (hq : s.seq = .idle) (hp : s.ptmr = 0) (op : Bit) :
    Inv (accept op s) := by
  obtain ⟨hb, hw, hc, hl, -, -⟩ := h
  rw [linesDue, hq] at hl
  exact ⟨hb, hw, hc, hl, hp.trans_le (Nat.zero_le _), rfl⟩

theorem inv_seqStep {s : State} {k : Fin 38} (h : Inv s) (hq : s.seq = .step k) :
    Inv (seqStep k s) := by
  obtain ⟨hb, hw, hc, hl, -, hs⟩ := h
  exact ⟨by rwa [seqStep_build], seqStep_histWf hw k, coldCursor_seqStep hc k,
    linesDue_seqStep hq hl, pauseWf_seqStep k s, shiftDue_seqStep hq hs⟩

theorem Move.inv {s t : State} (m : Move s t) (h : Inv s) : Inv t := by
  have h' : Inv (takeInput s) := h
  cases m with
  | reset =>
    obtain ⟨hb, ⟨-, hcur⟩, -⟩ := h
    exact inv_resetEngine hb (Nat.zero_lt_of_lt hcur)
  | pause => exact inv_waitTick h'
  | quiet => exact h'
  | accept hr hp hq hv => exact inv_accept h' hq hp _
  | perform k hr hc hp hq => exact inv_seqStep h' hq

/-- Settles O50: a step that goes on is one of the five moves, and each keeps every clause. -/
theorem invariantKept : Obligations.InvariantKept :=
  fun _ _ h e => (step_next_move e).2.inv h

/-- Settles O52: the invariant holds on every run, and its clause on the lines is read at `IDLE`, 1
and 2. -/
theorem idleLinesOnEveryRun : Obligations.IdleLinesOnEveryRun := by
  intro m s t hs hr
  obtain ⟨-, -, -, hl, -, -⟩ := stepRun_keeps invariantKept hs hr
  refine ⟨fun hq => ?_, fun hq => ?_, fun hq => ?_⟩ <;> rw [linesDue, hq] at hl
  · exact ⟨congrArg Levels.csN hl, congrArg Levels.clk hl, congrArg Levels.din hl⟩
  · exact congrArg Levels.clk hl
  · exact congrArg Levels.din hl

/-! ### How the sequencer moves (10_state R17) -/

theorem commandAccepted_iff {s : State} :
    commandAccepted s = true ↔
      (hostInput s).cmdValid = true ∧ s.seq = .idle ∧ (hostInput s).rst = false := by
  cases h : s.seq <;> simp [commandAccepted, cmdReady, busy, h]

/-- Settles O54: each of the five moves is one of the ways named. -/
theorem sequencerMoves : Obligations.SequencerMoves := by
  intro s t h
  cases (step_next_move h).2 with
  | reset hr => exact .inr (.inr (.inr (.inr ⟨hr, rfl⟩)))
  | pause hr hc hp => exact .inl ⟨rfl, fun _ => hp⟩
  | quiet hr hp hq hv => exact .inl ⟨rfl, fun hn => absurd hq hn⟩
  | accept hr hp hq hv => exact .inr (.inl ⟨hq, rfl, commandAccepted_iff.2 ⟨hv, hq, hr⟩, rfl⟩)
  | perform k hr hc hp hq =>
    by_cases hk : k = 37
    · subst hk
      exact .inr (.inr (.inr (.inl ⟨hq, rfl⟩)))
    · exact .inr (.inr (.inl ⟨k, hk, hq, nextSeq_of_ne hk⟩))

/-! ### What changes the filter and the result (10_state R20, R24, R32) -/

/-- COMPLETE of an ACQ leaves the filter alone. -/
theorem complete_sameFilter {s : State} (h : s.opreg = 0) : sameFilter s (complete s) := by
  rw [complete, if_pos h]
  exact ⟨rfl, rfl, rfl⟩

/-- COMPLETE never clears `INIT` (10_state R24). -/
theorem complete_init {s : State} (h : s.init = true) : (complete s).init = true := by
  rcases complete_cases s with ⟨-, e⟩ | ⟨-, -, e⟩ | ⟨-, -, e⟩ <;> rw [e]
  · exact h
  · rfl
  · exact h

theorem seqStep_init {s : State} (h : s.init = true) (k : Fin 38) :
    (seqStep k s).init = true := by
  by_cases hk : k = 37
  · subst hk
    exact complete_init h
  · obtain ⟨-, -, hi, -⟩ := seqStep_filter hk s
    exact hi.trans h

/-- The filter is left alone, unless by reset or by COMPLETE of a FREAD (10_state R32 (e)). -/
theorem Move.filter {s t : State} (m : Move s t) :
    sameFilter s t ∨ (hostInput s).rst = true ∨
      (s.seq = .step 37 ∧ s.opreg ≠ 0 ∧ s.ptmr = 0) := by
  cases m with
  | reset hr => exact .inr (.inl hr)
  | pause | quiet | accept => exact .inl ⟨rfl, rfl, rfl⟩
  | perform k hr hc hp hq =>
    by_cases hk : k = 37
    · subst hk
      by_cases ho : s.opreg = 0
      · exact .inl (complete_sameFilter (s := takeInput s) ho)
      · exact .inr (.inr ⟨hq, ho, hp⟩)
    · obtain ⟨hh, hcur, hi, -⟩ := seqStep_filter hk (takeInput s)
      exact .inl ⟨hh, hcur, hi⟩

/-- `INIT`, once 1, stays 1 unless by reset (10_state R24). -/
theorem Move.init {s t : State} (m : Move s t) (hr : (hostInput s).rst = false)
    (hi : s.init = true) : t.init = true := by
  cases m with
  | reset h => rw [hr] at h; cases h
  | pause | quiet | accept => exact hi
  | perform k => exact seqStep_init (s := takeInput s) hi k

/-- `RESULT` is left alone, unless by reset or by COMPLETE (10_state R20). -/
theorem Move.result {s t : State} (m : Move s t) :
    t.result = s.result ∨ (hostInput s).rst = true ∨ (s.seq = .step 37 ∧ s.ptmr = 0) := by
  cases m with
  | reset hr => exact .inr (.inl hr)
  | pause | quiet | accept => exact .inl rfl
  | perform k hr hc hp hq =>
    by_cases hk : k = 37
    · subst hk
      exact .inr (.inr ⟨hq, hp⟩)
    · obtain ⟨-, -, -, hres⟩ := seqStep_filter hk (takeInput s)
      exact .inl hres

/-- Settles O55: the three rules and the frame of the surroundings, over the five moves. -/
theorem whatChangesTheFilter : Obligations.WhatChangesTheFilter := by
  intro s t h
  obtain ⟨-, m⟩ := step_next_move h
  refine ⟨m.filter, fun hi ht => ?_, m.result, m.surroundings⟩
  by_contra hr
  exact absurd (m.init (Bool.eq_false_iff.2 hr) hi) (by simp [ht])

/-! ### The port signals (10_state R21, R28, R29) -/

theorem busy_iff {s : State} : busy s = true ↔ s.seq ≠ .idle := by
  cases h : s.seq <;> simp [busy, h]

/-- A tick runs the current instruction when nothing of higher priority is there (60_exceptions
R98). -/
theorem tickKind_run_iff {s : State} {i : Instr} :
    tickKind s = .run i ↔
      s.build.legal = true ∧ (hostInput s).rst = false ∧ contended s = false ∧ s.ptmr = 0 ∧
        currentInstr s = some i := by
  rw [← buildRefusal_none_iff]
  unfold tickKind
  cases buildRefusal s.build with
  | some r => simp
  | none =>
    cases (hostInput s).rst with
    | true => simp
    | false =>
      cases contended s with
      | true => simp
      | false =>
        by_cases hp : s.ptmr = 0
        · cases currentInstr s <;> simp [hp]
        · simp [hp]

theorem rspValid_iff {s : State} :
    rspValid s = true ↔ (∃ i, tickKind s = .run i) ∧ s.seq = .step 37 := by
  unfold rspValid
  cases tickKind s <;> simp

/-- Settles O48: each signal read off the state; in a busy engine no contention is nothing foreign. -/
theorem portSignals : Obligations.PortSignals := by
  intro s
  refine ⟨busy_iff, rfl, rfl, fun h => ?_, rspValid_iff.trans ⟨?_, ?_⟩⟩
  · obtain ⟨-, hq, -⟩ := commandAccepted_iff.1 h
    exact hq
  · rintro ⟨⟨i, hk⟩, hq⟩
    obtain ⟨hb, hr, hc, hp, -⟩ := tickKind_run_iff.1 hk
    have hf : (hostInput s).foreign = false := by
      rwa [contended, busy_iff.2 (by simp [hq]), Bool.true_and] at hc
    exact ⟨hb, hr, hf, hp, hq⟩
  · rintro ⟨hb, hr, hf, hp, hq⟩
    exact ⟨⟨_, tickKind_run_iff.2
      ⟨hb, hr, contended_of_undisturbed hf, hp, currentInstr_step hq⟩⟩, hq⟩

/-! ### What a FREAD leaves unchanged (10_state R32 (e), 41_filter R87) -/

theorem complete_levels (s : State) : levels (complete s) = levels s := by
  simp [levels]

/-- An initialized filter loses at COMPLETE only the entry at the cursor (41_filter R87). -/
theorem histRead_complete_other {s : State} (hi : s.init = true) {a : Nat} (ha : a ≠ s.cur) :
    histRead (complete s) a = histRead s a := by
  rcases complete_cases s with ⟨-, e⟩ | ⟨-, hc, -⟩ | ⟨-, -, e⟩
  · rw [e]
    rfl
  · rw [hi] at hc
    cases hc
  · rw [e]
    exact histRead_store_other s s.shift ha

theorem seqStep_filterFrame {s : State} {k : Fin 38} (hk : k ≠ 37) :
    sameFilter s (seqStep k s) ∧ (∀ a : Nat, histRead (seqStep k s) a = histRead s a) ∧
      (seqStep k s).result = s.result := by
  obtain ⟨hh, hc, hi, hres⟩ := seqStep_filter hk s
  exact ⟨⟨hh, hc, hi⟩, fun a => by rw [histRead, hh, histRead], hres⟩

/-- Settles O39: the event of a FREAD is the acceptance, a step before COMPLETE, or COMPLETE. Which
operation is in flight does not matter: COMPLETE of an ACQ leaves every entry alone. -/
theorem freadFrame : Obligations.FreadFrame := by
  intro s t _ h
  obtain ⟨-, rfl⟩ := execFread_next_iff.1 h
  cases hq : s.seq with
  | idle =>
    rw [offer_idle hq]
    exact ⟨⟨rfl, rfl⟩, fun _ => ⟨⟨rfl, rfl, rfl⟩, fun _ => rfl, rfl⟩, nofun, nofun,
      fun hn => absurd rfl hn, fun _ => ⟨rfl, rfl⟩⟩
  | step k =>
    rw [offer_step hq]
    refine ⟨⟨seqStep_build k s, seqStep_host k s⟩, fun hk => ?_, fun hk hi a ha => ?_, fun hk => ?_,
      fun _ => seqStep_opreg k s, nofun⟩
    · exact seqStep_filterFrame fun e => hk (congrArg _ e)
    · cases hk
      exact histRead_complete_other hi ha
    · cases hk
      exact ⟨complete_levels s, complete_shift s⟩

/-! ### The pure filter holds only samples (10_state R32 (a), (c)) -/

/-- An initialized filter of `n` entries, all of them among `samples`, whose cursor names one. -/
structure HoldsOnly (n : Nat) (samples : List Byte) (st : FilterState) : Prop where
  initialized : st.f = true
  entries : st.h.length = n
  cursor : st.c < n
  sampled : ∀ e ∈ st.h, e ∈ samples

theorem holdsOnly_coldStart {n : Nat} {samples : List Byte} {st : FilterState} {r : Byte}
    (hn : 1 ≤ n) (hf : st.f = false) (hr : r ∈ samples) :
    HoldsOnly n samples (filterStep n st r).1 := by
  rw [filterStep, if_pos hf]
  exact ⟨rfl, List.length_replicate, hn, fun e he => List.eq_of_mem_replicate he ▸ hr⟩

theorem HoldsOnly.filterStep {n : Nat} {samples : List Byte} {st : FilterState} {r : Byte}
    (h : HoldsOnly n samples st) (hr : r ∈ samples) :
    HoldsOnly n samples (Machine.filterStep n st r).1 := by
  obtain ⟨hf, hl, hc, hs⟩ := h
  rw [Machine.filterStep, if_neg (by simp [hf])]
  refine ⟨rfl, List.length_set.trans hl, ?_, fun e he => ?_⟩
  · show (if st.c = n - 1 then 0 else st.c + 1) < n
    split <;> omega
  · rcases List.mem_or_eq_of_mem_set he with hm | rfl
    · exact hs e hm
    · exact hr

theorem HoldsOnly.filterRun {n : Nat} {samples rs : List Byte} {st : FilterState}
    (h : HoldsOnly n samples st) (v : Nat) (hrs : ∀ r ∈ rs, r ∈ samples) :
    HoldsOnly n samples (Machine.filterRun n st v rs).1 := by
  induction rs generalizing st v with
  | nil => exact h
  | cons r rs ih =>
    exact ih (h.filterStep (hrs r List.mem_cons_self)) _
      fun x hx => hrs x (List.mem_cons_of_mem r hx)

/-- Settles O27: the cold start establishes `HoldsOnly`, and every further sample keeps it. -/
theorem historyHoldsOnlySamples : Obligations.HistoryHoldsOnlySamples := by
  intro n c v h rs r0 hn
  have cold : HoldsOnly n (r0 :: rs) (filterStep n { h := h, c := c, f := false } r0).1 :=
    holdsOnly_coldStart hn rfl List.mem_cons_self
  obtain ⟨hf, hl, hc, hs⟩ := cold.filterRun _ fun r hr => List.mem_cons_of_mem r0 hr
  exact ⟨hf, hl, hc, hs⟩

end Sys2Proof.StateRules
end

section
/-! PROOFS of the family 20_memory: what one event does to the lines. -/

namespace Sys2Proof.LineRules

open Sys2Proof.Machine Sys2Proof.Laws Sys2Proof.StateRules

/-- From the levels `l` to the levels `l'` at most one line changes: `CS_N`, `CLK` or `DIN`. -/
def ChangesAtMostOne (l l' : Levels) : Prop :=
  (l'.clk = l.clk ∧ l'.din = l.din) ∨ (l'.csN = l.csN ∧ l'.din = l.din) ∨
    (l'.csN = l.csN ∧ l'.clk = l.clk)

theorem changesAtMostOne_refl (l : Levels) : ChangesAtMostOne l l := .inl ⟨rfl, rfl⟩

/-- A write of the table drives one line, and leaves the other two as they are (20_memory R43). -/
theorem changesAtMostOne_driveLevels (w : Option (Line × Bit)) (l : Levels) :
    ChangesAtMostOne l (driveLevels w l) := by
  rcases w with _ | ⟨_ | _ | _, b⟩
  case none => exact changesAtMostOne_refl l
  case some.csN => exact .inl ⟨rfl, rfl⟩
  case some.clk => exact .inr (.inl ⟨rfl, rfl⟩)
  case some.din => exact .inr (.inr ⟨rfl, rfl⟩)

theorem changesAtMostOne_seqStep (k : Fin 38) (s : State) :
    ChangesAtMostOne (levels s) (levels (seqStep k s)) := by
  rw [seqStep_levels, levels_writeLine]
  exact changesAtMostOne_driveLevels _ _

/-- Only a reset moves two lines at once (70_reset R109): of the other moves, a performed step alone
writes to a line. -/
theorem changesAtMostOne_of_move {s t : State} (m : Move s t) (hr : (hostInput s).rst = false) :
    ChangesAtMostOne (levels s) (levels t) := by
  cases m with
  | reset h => rw [hr] at h; cases h
  | pause | quiet | accept => exact changesAtMostOne_refl (levels s)
  | perform k => exact changesAtMostOne_seqStep k (takeInput s)

/-- Settles O56: a step that goes on is a move, and no move but reset changes two lines. -/
theorem atMostOneLineChanges : Obligations.AtMostOneLineChanges :=
  fun _ _ h hr => changesAtMostOne_of_move (step_next_move h).2 hr

end Sys2Proof.LineRules
end

section
/-! PROOFS of the family 30_encoding: the decoder and the encoder, the frame, whole operations, and
scripts. -/

/-! ### The sample and its eight slots (30_encoding R52, R56) -/

namespace Sys2Proof.Encoding

open Sys2Proof.Machine Sys2Proof.StateRules

/-- A sample weighs the bit of result pulse `k` with `2^(7-k)` (30_encoding R56). -/
theorem toNat_assemble (d0 d1 d2 d3 d4 d5 d6 d7 : Bit) :
    (assemble [d0, d1, d2, d3, d4, d5, d6, d7]).toNat =
      d0.toNat * 128 + d1.toNat * 64 + d2.toNat * 32 + d3.toNat * 16 + d4.toNat * 8 +
        d5.toNat * 4 + d6.toNat * 2 + d7.toNat := by
  simp only [assemble, List.foldl_cons, List.foldl_nil, toNat_shiftIn, BitVec.ofNat_eq_ofNat,
    BitVec.toNat_ofNat]
  omega

theorem toNat_answerBit (p : Byte) (k : Fin 8) :
    (answerBit p k).toNat = p.toNat / 2 ^ (7 - k.val) % 2 := by
  simp [answerBit, BitVec.extractLsb'_toNat, Nat.shiftRight_eq_div_pow]

/-- The engine assembles the slots of a byte to that byte (40_acquisition R77). -/
theorem assemble_responseSlots (p : Byte) : assemble (responseSlots p) = p := by
  apply BitVec.eq_of_toNat_eq
  simp [responseSlots, toNat_assemble, toNat_answerBit]
  omega

theorem responseSlots_assemble {ds : List Bit} (h : ds.length = 8) :
    responseSlots (assemble ds) = ds := by
  match ds, h with
  | [d0, d1, d2, d3, d4, d5, d6, d7], _ =>
    simp [responseSlots, BitVec.toNat_eq, toNat_answerBit, toNat_assemble]
    omega

/-- Settles O5: the weights are `toNat_assemble`; the folds and sums are the definitions. -/
theorem assembleWeights : Obligations.AssembleWeights :=
  fun d0 d1 d2 d3 d4 d5 d6 d7 =>
    ⟨toNat_assemble d0 d1 d2 d3 d4 d5 d6 d7, rfl, fun _ => rfl⟩

/-! ### The decoder (30_encoding R50, R53, R58) -/

/-- The decoder accepts a frame pattern exactly when it is the header and eight slots. -/
theorem decodeFrame_ok_iff {slots : List Bit} {i : Instr} :
    decodeFrame slots = .ok i ↔
      ∃ ds : List Bit, ds.length = 8 ∧ slots = Config.header ++ ds ∧ i = .frame (assemble ds) := by
  unfold decodeFrame
  constructor
  · intro h
    split_ifs at h with hl hh
    refine ⟨slots.drop 3, ?_, ?_, (Except.ok.inj h).symm⟩
    · rw [List.length_drop]
      omega
    · rw [← not_not.1 hh, List.take_append_drop]
  · rintro ⟨ds, hl, rfl, rfl⟩
    simp [Config.header, hl]

theorem decodeFrame_header_append {ds : List Bit} (h : ds.length = 8) :
    decodeFrame (Config.header ++ ds) = .ok (.frame (assemble ds)) :=
  decodeFrame_ok_iff.2 ⟨ds, h, rfl, rfl⟩

theorem decode_encode (i : Instr) : decode (encode i) = .ok i := by
  cases i with
  | acq => rfl
  | fread => rfl
  | frame d =>
    calc decode (encode (.frame d))
        = .ok (.frame (assemble (responseSlots d))) := decodeFrame_header_append rfl
      _ = .ok (.frame d) := by rw [assemble_responseSlots]

theorem encode_decodeCmd (op : Bit) : encode (decodeCmd op) = .cmd op := by
  decide +revert

theorem encode_of_decode {c : Code} {i : Instr} (h : decode c = .ok i) : encode i = c := by
  cases c with
  | cmd op =>
    obtain rfl : decodeCmd op = i := Except.ok.inj h
    exact encode_decodeCmd op
  | frame slots =>
    obtain ⟨ds, hl, rfl, rfl⟩ := decodeFrame_ok_iff.1 h
    rw [encode, responseSlots_assemble hl]

theorem wellFormed_frame_iff {slots : List Bit} :
    (Code.frame slots).wellFormed = true ↔ slots.length = 11 ∧ slots.take 3 = Config.header := by
  simp [Code.wellFormed]

theorem decode_frame_of_wrong_length {slots : List Bit} (h : slots.length ≠ 11) :
    decode (.frame slots) = .error .frameLength := if_pos h

theorem decode_frame_of_wrong_header {slots : List Bit} (hl : slots.length = 11)
    (hh : slots.take 3 ≠ Config.header) : decode (.frame slots) = .error .frameHeader := by
  rw [decode, decodeFrame, if_neg (not_not.2 hl), if_pos hh]

/-- A legal form passes both checks of the decoder, and what passes them is a legal form. -/
theorem wellFormed_iff_decodes (c : Code) : c.wellFormed = true ↔ ∃ i, decode c = .ok i := by
  cases c with
  | cmd op => exact iff_of_true rfl ⟨_, rfl⟩
  | frame slots =>
    constructor
    · intro h
      obtain ⟨hl, hh⟩ := wellFormed_frame_iff.1 h
      exact ⟨_, by rw [decode, decodeFrame, if_neg (not_not.2 hl), if_neg (not_not.2 hh)]⟩
    · rintro ⟨i, h⟩
      obtain ⟨ds, hl, rfl, -⟩ := decodeFrame_ok_iff.1 h
      exact wellFormed_frame_iff.2 ⟨by simp [Config.header, hl], rfl⟩

theorem isHostCommand_decodeCmd (op : Bit) : (decodeCmd op).isHostCommand = true := by
  decide +revert

/-- Settles O1: the commands by evaluation, a frame because its slots assemble to its byte. -/
theorem decodeOfEncode : Obligations.DecodeOfEncode := decode_encode

/-- Settles O2: a decoded command word or frame pattern is rebuilt by the encoder. -/
theorem encodeOfDecode : Obligations.EncodeOfDecode := fun _ _ => encode_of_decode

/-- Settles O3: the legal forms, the command words, and the two refusals in the decoder's order. -/
theorem decoderRefusals : Obligations.DecoderRefusals :=
  ⟨wellFormed_iff_decodes, fun op => ⟨decodeCmd op, rfl, isHostCommand_decodeCmd op⟩,
    fun _ => decode_frame_of_wrong_length, fun _ => decode_frame_of_wrong_header⟩

/-- Settles O4: the frame patterns are the header with the slots of 0xC8, or with another header. -/
theorem decodedWords : Obligations.DecodedWords := by
  refine ⟨by decide, by decide, by decide, ?_, ?_⟩
  · exact decode_encode (.frame 0xC8)
  · exact decode_frame_of_wrong_header rfl (by decide)

end Sys2Proof.Encoding
end

section
/-! PROOFS of the family 30_encoding: the meaning of FRAME, and the placing of a word. -/

namespace Sys2Proof.FrameRules

open Sys2Proof.Machine Sys2Proof.Safety Sys2Proof.Laws Sys2Proof.StateRules Sys2Proof.Encoding

/-! ### What a step leaves alone in the environment -/

/-- Only the fall of `CS_N` and a sample touch the environment (30_encoding R61, 20_memory R41). -/
theorem stepAction_environment {a : StepKind} (ha : a ≠ .startCs) (s : State) :
    (stepAction a s).answer = s.answer ∧ (stepAction a s).oracle = s.oracle := by
  cases a with
  | startCs => exact absurd rfl ha
  | _ => simp [stepAction]

theorem stepAction_draws_of_answered {a : StepKind} {s : State} (h : s.answer ≠ none) :
    (stepAction a s).draws = s.draws := by
  cases a <;> simp [stepAction, h]

theorem seqStep_environment {k : Fin 38} (hk : k ≠ 0) (s : State) :
    (seqStep k s).answer = s.answer ∧ (seqStep k s).oracle = s.oracle := by
  have ha : stepKind k ≠ .startCs := fun e => hk ((stepKind_startCs_iff k).1 e)
  simpa [seqStep] using stepAction_environment ha s

/-- No free bit is drawn while the environment has fixed the answer (00_scope R11). -/
theorem seqStep_draws_of_answered {k : Fin 38} {s : State} (h : s.answer ≠ none) :
    (seqStep k s).draws = s.draws := by
  simpa [seqStep] using stepAction_draws_of_answered h

/-! ### The event of FRAME -/

theorem fixAnswer_of_answered {d : Byte} {s : State} (h : s.answer = some d) :
    fixAnswer d s = s := by
  rw [fixAnswer, ← h]

/-- The event of FRAME in a frame that is answered by its byte is the sequencer's step. -/
theorem frameStep_of_answered {d : Byte} {k : Fin 38} {s : State} (hk : k ≠ 0)
    (h : s.answer = some d) : frameStep d k s = seqStep k s := by
  rw [frameStep, fixAnswer_of_answered h]
  exact fixAnswer_of_answered ((seqStep_environment hk s).1.trans h)

/-- `s` with `d` in place of the environment's next byte, if there is one. -/
def withNextByte (d : Byte) (s : State) : State := { s with oracle := d :: s.oracle.tail }

/-- Step 0 takes the environment's next byte, so FRAME fixes its byte there as if it came next. -/
theorem frameStep_zero (d : Byte) (s : State) :
    frameStep d 0 s = seqStep 0 (withNextByte d s) := rfl

theorem withNextByte_of_next {d : Byte} {s : State} (h : s.oracle.head? = some d) :
    withNextByte d s = s := by
  rw [withNextByte, ← List.eq_cons_of_mem_head? h]

theorem execFrame_of_step {d : Byte} {s : State} {k : Fin 38} (hq : s.seq = .step k)
    (hk : k ≠ 37) : exec (.frame d) s = onLegalBuild s.build (frameStep d k s) := by
  have hv : k.val ≠ 37 := fun e => hk (Fin.ext e)
  simp [exec, execFrame, hq, hv]

theorem exec_decodeCmd_of_step (op : Bit) {s : State} {k : Fin 38} (hq : s.seq = .step k) :
    exec (decodeCmd op) s = onLegalBuild s.build (seqStep k s) := by
  rw [exec_decodeCmd, offer_step hq]

/-- FRAME with the byte that answers the transaction, or at step 0 will answer it, does what the
sequencer does. -/
theorem frameStep_eq_seqStep {d : Byte} {s : State} {k : Fin 38}
    (h : if k = 0 then s.oracle.head? = some d else s.answer = some d) :
    frameStep d k s = seqStep k s := by
  by_cases hk : k = 0
  · subst hk
    rw [frameStep_zero, withNextByte_of_next (by simpa using h)]
  · exact frameStep_of_answered hk (by simpa [hk] using h)

/-- In a frame answered by `d`, either command in flight emits FRAME `d` (30_encoding R53). -/
theorem exec_decodeCmd_eq_frame (op : Bit) {d : Byte} {s : State} {k : Fin 38}
    (hq : s.seq = .step k) (hk : k ≠ 37)
    (h : if k = 0 then s.oracle.head? = some d else s.answer = some d) :
    exec (decodeCmd op) s = exec (.frame d) s := by
  rw [exec_decodeCmd_of_step op hq, execFrame_of_step hq hk, frameStep_eq_seqStep h]

/-- Settles O30: ACQ and FREAD are the two commands of `exec_decodeCmd_eq_frame`. -/
theorem frameIsEmittedByBothOperations : Obligations.FrameIsEmittedByBothOperations :=
  fun _ _ _ hq hk h => ⟨exec_decodeCmd_eq_frame 0 hq hk h, exec_decodeCmd_eq_frame 1 hq hk h⟩

/-- Settles O29: no frame is in progress at `IDLE` and at step 37. -/
theorem frameStopsOutsideAFrame : Obligations.FrameStopsOutsideAFrame := by
  rintro d s (hq | hq) <;> simp [exec, execFrame, hq]

/-- Settles O40: before COMPLETE a step leaves the filter, the result, `OPREG` and the surroundings
alone, and FRAME's answer is fixed, so nothing is drawn. -/
theorem frameFrame : Obligations.FrameFrame := by
  intro d s t h
  obtain ⟨k, -, hk, -, rfl⟩ := execFrame_next_iff.1 h
  obtain ⟨hf, hr, hres⟩ := seqStep_filterFrame (s := fixAnswer d s) hk
  exact ⟨hf, hr, ⟨seqStep_build k (fixAnswer d s), seqStep_host k (fixAnswer d s)⟩,
    seqStep_opreg k (fixAnswer d s), hres,
    seqStep_draws_of_answered (s := fixAnswer d s) (Option.some_ne_none d)⟩

/-! ### FRAME follows the step table -/

/-- The levels due at the position after a row are the row's "levels after". -/
theorem levelsDue_nextSeq : ∀ k : Fin 38, levelsDue (nextSeq k) = stepLevels (stepKind k) := by
  decide

theorem levels_seqStep_of_linesDue {s : State} {k : Fin 38} (hq : s.seq = .step k)
    (h : linesDue s) : levels (seqStep k s) = stepLevels (stepKind k) :=
  (linesDue_seqStep hq h).trans (levelsDue_nextSeq k)

theorem stepKind_rspSample_iff : ∀ (k : Fin 38) (j : Fin 8),
    stepKind k = .rspSample j ↔ k.val = 13 + 3 * j.val := by
  decide

theorem seqStep_shift_of_sample {k : Fin 38} {j : Fin 8} (h : k.val = 13 + 3 * j.val) (s : State) :
    (seqStep k s).shift = shiftIn s.shift (pinRead j s) := by
  rw [seqStep_shift, (stepKind_rspSample_iff k j).2 h, stepAction, sampleBit_shift]

theorem seqStep_shift_of_other {k : Fin 38} (hk : k ≠ 0)
    (h : ∀ j : Fin 8, k.val ≠ 13 + 3 * j.val) (s : State) : (seqStep k s).shift = s.shift := by
  rw [seqStep_shift]
  rcases stepAction_shift_cases (stepKind k) s with ⟨ha, -⟩ | ⟨j, ha, -⟩ | ⟨-, e⟩
  · exact absurd ((stepKind_startCs_iff k).1 ha) hk
  · exact absurd ((stepKind_rspSample_iff k j).1 ha) (h j)
  · exact e

/-- Settles O28: FRAME's event is the step of the sequencer on the state with the answer fixed. -/
theorem frameEventFollowsTheTable : Obligations.FrameEventFollowsTheTable := by
  rintro d s k ⟨hb, -, -, hl, -, -⟩ hq hk
  refine ⟨frameStep d k s, execFrame_next_iff.2 ⟨k, hq, hk, hb, rfl⟩, nextSeq_of_ne hk,
    levels_seqStep_of_linesDue (s := fixAnswer d s) hq hl, seqStep_ptmr k (fixAnswer d s), ?_,
    fun j hj => seqStep_shift_of_sample hj (fixAnswer d s),
    fun ⟨h0, hj⟩ => seqStep_shift_of_other h0 hj (fixAnswer d s)⟩
  rintro rfl
  rfl

/-! ### A placed word (logs 8, 9) -/

/-- A tick that runs an instruction is one event of it. -/
theorem step_of_run {s : State} {i : Instr} (h : tickKind s = .run i) :
    step s = exec i (takeInput s) := by
  rw [step, h]

theorem step_placeCode_cmd {s : State} (hb : s.build.legal = true) (op : Bit) :
    step (placeCode (.cmd op) s) = exec (decodeCmd op) (takeInput (placeCode (.cmd op) s)) :=
  step_of_run (tickKind_run_iff.2 ⟨hb, rfl, rfl, rfl, rfl⟩)

/-- A placed frame is started by the operation in `OPREG`, whichever it is. -/
theorem step_placeCode_frame {s : State} (hb : s.build.legal = true) (d : Byte) :
    step (placeCode (encode (.frame d)) s) =
      exec (.frame d) (takeInput (placeCode (encode (.frame d)) s)) := by
  have hrun : tickKind (placeCode (encode (.frame d)) s) = .run (decodeCmd s.opreg) :=
    tickKind_run_iff.2 ⟨hb, rfl, rfl, rfl, rfl⟩
  have hnext : (placeCode (encode (.frame d)) s).oracle.head? = some d :=
    congrArg some (assemble_responseSlots d)
  rw [step_of_run hrun]
  exact exec_decodeCmd_eq_frame (k := 0) s.opreg rfl (by decide) hnext

theorem withFetchWord_cmd (s : State) (op : Bit) :
    s.withFetchWord 8 op.toNat = placeCode (.cmd op) s := by
  have h : codeOfTableWord 8 op.toNat = some (.cmd op) := by decide +revert
  simp [State.withFetchWord, placeTableWord, h, decode]

/-- The pattern number `110` and then `d` has the slots of FRAME `d` (log 8). -/
theorem slotsOfNat_frame (d : Byte) :
    slotsOfNat 11 (0b110 * 256 + d.toNat) = Config.header ++ responseSlots d := by
  simp [slotsOfNat, Config.header, responseSlots, BitVec.toNat_eq, toNat_answerBit]
  omega

theorem codeOfTableWord_frame (d : Byte) :
    codeOfTableWord 16 (0b110 * 256 + d.toNat) = some (encode (.frame d)) := by
  rw [codeOfTableWord, if_neg (by decide), if_pos (by omega), slotsOfNat_frame, encode]

theorem withFetchWord_frame (s : State) (d : Byte) :
    s.withFetchWord 16 (0b110 * 256 + d.toNat) = placeCode (encode (.frame d)) s := by
  simp only [State.withFetchWord, placeTableWord, codeOfTableWord_frame, decode_encode]

/-- Settles O42: a command word is offered to an idle engine, a frame is started at step 0. -/
theorem placedWordRunsNext : Obligations.PlacedWordRunsNext := by
  refine fun s hb => ⟨?_, ?_, fun d => ?_⟩
  · rw [show s.withFetchWord 8 0 = placeCode (.cmd 0) s from withFetchWord_cmd s 0]
    exact step_placeCode_cmd hb 0
  · rw [show s.withFetchWord 8 1 = placeCode (.cmd 1) s from withFetchWord_cmd s 1]
    exact step_placeCode_cmd hb 1
  · rw [withFetchWord_frame]
    exact step_placeCode_frame hb d

end Sys2Proof.FrameRules
end

section
/-! PROOFS of the family 30_encoding: a whole frame and a whole operation, block by block. -/

namespace Sys2Proof.Operations

open Sys2Proof.Machine Sys2Proof.Safety Sys2Proof.Laws Sys2Proof.StateRules Sys2Proof.Encoding
  Sys2Proof.FrameRules

/-! ### Runs of a command -/

@[simp] theorem offer_build (op : Bit) (s : State) : (offer op s).build = s.build := by
  unfold offer
  split
  · rfl
  · exact seqStep_build _ s

/-- On a legal build a command is never refused: its run is its events one after the other. -/
theorem execRun_command (op : Bit) (m : Nat) {s : State} (hb : s.build.legal = true) :
    execRun m (decodeCmd op) s = .next ((offer op)^[m] s) := by
  induction m generalizing s with
  | zero => rfl
  | succ m ih =>
    have he : exec (decodeCmd op) s = .next (offer op s) := by
      rw [exec_decodeCmd, onLegalBuild_of_legal hb]
    rw [execRun_succ_of_next he, ih ((congrArg _ (offer_build op s)).trans hb),
      Function.iterate_succ_apply]

/-! ### The blocks of the step table (40_acquisition R63) -/

/-- What steps 0 to 11 leave: the converter selected, the header sent, `DIN` released. -/
def afterHeader (s : State) : State :=
  { s with
    csN := 0, clk := 0, din := 1, shift := 0, seq := .step 12, ptmr := s.build.tSettle,
    answer := s.oracle.head?, oracle := s.oracle.tail }

theorem offer_iterate_header (op : Bit) {s : State} (hq : s.seq = .step 0) :
    (offer op)^[12] s = afterHeader s := by
  cases s
  cases hq
  rfl

/-- The positions of the three steps of result pulse `j`: its rise, its sample, its fall. -/
def pulseStep (j : Fin 8) (i : Fin 3) : Fin 38 := ⟨12 + 3 * j.val + i.val, by omega⟩

theorem stepKind_pulseStep : ∀ j : Fin 8,
    stepKind (pulseStep j 0) = .rspRise j ∧ stepKind (pulseStep j 1) = .rspSample j ∧
      stepKind (pulseStep j 2) = .rspFall j := by
  decide

theorem nextSeq_pulseStep : ∀ j : Fin 8,
    nextSeq (pulseStep j 0) = .step (pulseStep j 1) ∧
      nextSeq (pulseStep j 1) = .step (pulseStep j 2) := by
  decide

/-- What the three steps of result pulse `j` leave: one bit sampled. -/
def afterPulse (j : Fin 8) (s : State) : State :=
  { sampleBit j s with
    clk := 0, seq := nextSeq (pulseStep j 2), ptmr := s.build.tSettle }

/-- A sample reads neither the lines nor the sequencer nor the pause timer. -/
theorem sampleBit_update (j : Fin 8) (s : State) (b : Bit) (q : Seq) (p : Nat) :
    sampleBit j { s with clk := b, seq := q, ptmr := p } =
      { sampleBit j s with clk := b, seq := q, ptmr := p } := by
  cases h : s.answer <;> simp [sampleBit, pinRead, drawn, h]

theorem offer_iterate_pulse (op : Bit) (j : Fin 8) {s : State}
    (hq : s.seq = .step (pulseStep j 0)) : (offer op)^[3] s = afterPulse j s := by
  obtain ⟨hrise, hsample, hfall⟩ := stepKind_pulseStep j
  obtain ⟨hnext, hnext'⟩ := nextSeq_pulseStep j
  have h1 : offer op s =
      { s with clk := 1, seq := .step (pulseStep j 1), ptmr := s.build.tSettle } := by
    rw [offer_step hq, seqStep, hrise, hnext]
    rfl
  have h2 : (offer op)^[2] s =
      { sampleBit j s with clk := 1, seq := .step (pulseStep j 2), ptmr := 0 } := by
    rw [Function.iterate_succ_apply, h1, Function.iterate_one, offer_step rfl, seqStep, hsample,
      hnext', stepAction, sampleBit_update]
    rfl
  rw [Function.iterate_succ_apply', h2, offer_step rfl, seqStep, hfall, afterPulse,
    ← sampleBit_build j s]
  rfl

/-- The eight result pulses in a row. -/
def afterPulses (s : State) : State :=
  afterPulse 7 (afterPulse 6 (afterPulse 5 (afterPulse 4
    (afterPulse 3 (afterPulse 2 (afterPulse 1 (afterPulse 0 s)))))))

theorem offer_iterate_pulses (op : Bit) {s : State} (hq : s.seq = .step 12) :
    (offer op)^[24] s = afterPulses s := by
  have next (m : Nat) (j : Fin 8) {t : State} (ht : t.seq = .step (pulseStep j 0)) :
      (offer op)^[m + 3] t = (offer op)^[m] (afterPulse j t) := by
    rw [Function.iterate_add_apply, offer_iterate_pulse op j ht]
  rw [next 21 0 hq, next 18 1 rfl, next 15 2 rfl, next 12 3 rfl, next 9 4 rfl, next 6 5 rfl,
    next 3 6 rfl, next 0 7 rfl]
  rfl

/-- From a cleared `SHIFT`, the eight pulses leave there the sample the environment gives: eight
free values, or the fixed byte (40_acquisition R77). -/
theorem afterPulses_afterHeader (s : State) :
    afterPulses (afterHeader s) =
      { afterFrame s with clk := 0, csN := 0, seq := .step 36, ptmr := s.build.tSettle } := by
  have hseq : nextSeq (pulseStep 7 2) = .step 36 := rfl
  cases ho : s.oracle <;>
    simp [afterPulses, afterHeader, afterPulse, sampleBit, pinRead, drawn, afterFrame, nextSample,
      hseq, ho]
  case nil => rfl
  case cons p rest => exact assemble_responseSlots p

/-- The state a frame started in `s` leaves in front of COMPLETE. -/
def beforeComplete (s : State) : State :=
  { afterFrame s with seq := .step 37, ptmr := s.build.tSettle }

theorem offer_iterate_frame (op : Bit) {s : State} (hq : s.seq = .step 0) :
    (offer op)^[37] s = beforeComplete s := by
  have hlast : (offer op)^[36] s = afterPulses (afterHeader s) := by
    rw [show 36 = 24 + 12 from rfl, Function.iterate_add_apply, offer_iterate_header op hq,
      offer_iterate_pulses op rfl]
  rw [Function.iterate_succ_apply', hlast, afterPulses_afterHeader]
  rfl

/-! ### A whole frame by FRAME (30_encoding R53) -/

/-- Before step 37 the position after a step is one higher, and not 0 again. -/
theorem position_succ {k : Fin 38} (h : k.val < 37) :
    k ≠ 37 ∧ k + 1 ≠ 0 ∧ (k + 1).val = k.val + 1 := by
  have hv : (k + 1).val = k.val + 1 := Fin.val_add_one_of_lt (Fin.lt_def.2 h)
  refine ⟨?_, ?_, hv⟩
  · rintro rfl
    exact absurd h (by decide)
  · intro h0
    simp [h0] at hv

/-- Past step 0 of a frame answered by `d`, a run of FRAME `d` is a run of the command in flight. -/
theorem execRun_frame_of_answered (op : Bit) {d : Byte} {m : Nat} {s : State} {k : Fin 38}
    (hq : s.seq = .step k) (hk : k ≠ 0) (ha : s.answer = some d) (hm : k.val + m ≤ 37)
    (hb : s.build.legal = true) :
    execRun m (.frame d) s = execRun m (decodeCmd op) s := by
  induction m generalizing s k with
  | zero => rfl
  | succ m ih =>
    obtain ⟨hk37, hk0, hsucc⟩ := position_succ (k := k) (by omega)
    have he : exec (decodeCmd op) s = .next (seqStep k s) := by
      rw [exec_decodeCmd_of_step op hq, onLegalBuild_of_legal hb]
    have hf : exec (.frame d) s = .next (seqStep k s) := by
      rw [← exec_decodeCmd_eq_frame op hq hk37 (by simpa [hk] using ha), he]
    rw [execRun_succ_of_next he, execRun_succ_of_next hf]
    exact ih (nextSeq_of_ne hk37) hk0 ((seqStep_environment hk s).1.trans ha) (by omega)
      ((congrArg _ (seqStep_build k s)).trans hb)

/-- Settles O31: FRAME `d` does at step 0 what the command in flight does with `d` as the next byte,
and so it does in the other events. -/
theorem frameCompletes : Obligations.FrameCompletes := by
  intro d s hb hq
  have hf : exec (.frame d) s = .next (seqStep 0 (withNextByte d s)) := by
    rw [execFrame_of_step hq (by decide), frameStep_zero, onLegalBuild_of_legal hb]
  have hc : exec .acq (withNextByte d s) = .next (seqStep 0 (withNextByte d s)) := by
    rw [← offer_step (op := 0) (s := withNextByte d s) hq]
    exact execAcq_next_iff.2 ⟨hb, rfl⟩
  calc execRun 37 (.frame d) s
      = execRun 36 (.frame d) (seqStep 0 (withNextByte d s)) := execRun_succ_of_next hf
    _ = execRun 36 .acq (seqStep 0 (withNextByte d s)) :=
        execRun_frame_of_answered (k := 1) 0 rfl (by decide) rfl (by decide) hb
    _ = execRun 37 .acq (withNextByte d s) := (execRun_succ_of_next hc).symm
    _ = .next ((offer 0)^[37] (withNextByte d s)) :=
        execRun_command (s := withNextByte d s) 0 37 hb
    _ = .next (beforeComplete (withNextByte d s)) :=
        congrArg _ (offer_iterate_frame (s := withNextByte d s) 0 hq)

/-! ### The filter value is exact (41_filter R89, R93) -/

theorem exactSum_le (h : List Byte) : exactSum h ≤ 255 * h.length := by
  have hle : ∀ x ∈ h.map BitVec.toNat, x ≤ 255 := by
    intro x hx
    obtain ⟨e, -, rfl⟩ := List.mem_map.1 hx
    omega
  simpa [exactSum, Nat.mul_comm] using List.sum_le_card_nsmul _ 255 hle

theorem toNat_foldl_add (w : Nat) (h : List Byte) (acc : BitVec w) :
    (h.foldl (fun acc e => acc + e.zeroExtend w) acc).toNat = (acc.toNat + exactSum h) % 2 ^ w := by
  induction h generalizing acc with
  | nil => simp [exactSum, Nat.mod_eq_of_lt acc.isLt]
  | cons e h ih =>
    rw [List.foldl_cons, ih]
    simp [exactSum, Nat.add_assoc]

/-- In a legal build the sum of the entries never wraps (41_filter R93). -/
theorem toNat_accSum {b : Build} {h : List Byte} (hb : b.legal = true) (hl : h.length = b.n) :
    (accSum b.accW h).toNat = exactSum h := by
  have hw : 255 * b.n < 2 ^ b.accW := by simp_all [Build.legal]
  have hs : exactSum h < 2 ^ b.accW := (hl ▸ exactSum_le h).trans_lt hw
  simp [accSum, toNat_foldl_add, Nat.mod_eq_of_lt hs]

theorem mod_add_one_eq {c n : Nat} (h : c < n) :
    (c + 1) % n = if c = n - 1 then 0 else c + 1 := by
  split
  · rw [show c + 1 = n by omega, Nat.mod_self]
  · exact Nat.mod_eq_of_lt (by omega)

/-- The filter registers and the result that `FilterStep` of the sample leaves (41_filter R88). -/
def afterFilterStep (s : State) : State :=
  let f := filterStep s.build.n (filterOf s) s.shift
  { s with hist := f.1.h, cur := f.1.c, init := f.1.f, result := BitVec.ofNat 8 f.2 }

/-- The update of the engine, with its sum of `ACC_W` bits, is `FilterStep` (41_filter R87, R88). -/
theorem completeFread_eq {s : State} (hb : s.build.legal = true) (hw : histWf s) :
    completeFread s = afterFilterStep s := by
  cases hi : s.init with
  | false => simp [completeFread, afterFilterStep, filterStep, filterOf, hi, coldStart, histFill]
  | true =>
    have hmean : truncatedMean s.build (s.hist.set s.cur s.shift) =
        BitVec.ofNat 8 (exactSum (s.hist.set s.cur s.shift) / s.build.n) := by
      rw [truncatedMean, toNat_accSum hb (List.length_set.trans hw.1)]
    simp [completeFread, afterFilterStep, filterStep, filterOf, hi, steadyState, setMean,
      advanceCursor, histStore, mod_add_one_eq hw.2, hmean]

/-- The value of an update of a full filter fits eight bits (41_filter R89). -/
theorem filterStep_value_lt {n : Nat} {st : FilterState} (hl : st.h.length = n)
    (raw : Byte) : (filterStep n st raw).2 < 256 := by
  rw [filterStep]
  split
  · exact raw.isLt
  · have hs := exactSum_le (st.h.set st.c raw)
    rw [List.length_set, hl] at hs
    exact Nat.lt_succ_of_le (Nat.div_le_of_le_mul (by rwa [Nat.mul_comm]))

/-! ### A whole operation (40_acquisition R62, 41_filter R84) -/

/-- Acceptance, the frame, and COMPLETE. -/
theorem offer_iterate_operation (op : Bit) {s : State} (hq : s.seq = .idle) :
    (offer op)^[operationEvents] s =
      { complete (beforeComplete (accept op s)) with ptmr := 0, seq := .idle } := by
  have hframe : (offer op)^[38] s = beforeComplete (accept op s) := by
    rw [Function.iterate_succ_apply, offer_idle hq, offer_iterate_frame op rfl]
  rw [operationEvents, Function.iterate_succ_apply', hframe, offer_step rfl, seqStep_complete]

theorem execRun_acq {s : State} (hb : s.build.legal = true) (hq : s.seq = .idle) :
    execRun operationEvents .acq s = .next (acqEffect s) := by
  refine (execRun_command 0 operationEvents hb).trans ?_
  rw [offer_iterate_operation 0 hq]
  rfl

/-- COMPLETE of a FREAD started in `s` is `FilterStep` of its sample (41_filter R88). -/
theorem complete_beforeComplete_fread {s : State} (hb : s.build.legal = true) (hw : histWf s) :
    complete (beforeComplete (accept 1 s)) = afterFilterStep (beforeComplete (accept 1 s)) :=
  completeFread_eq (s := beforeComplete (accept 1 s)) hb hw

theorem execRun_fread {s : State} (hb : s.build.legal = true) (hw : histWf s)
    (hq : s.seq = .idle) : execRun operationEvents .fread s = .next (freadEffect s) := by
  refine (execRun_command 1 operationEvents hb).trans ?_
  rw [offer_iterate_operation 1 hq, complete_beforeComplete_fread hb hw]
  rfl

theorem freadEffect_histWf {s : State} (hb : s.build.legal = true) (hw : histWf s) :
    histWf (freadEffect s) := by
  have h := complete_histWf (s := beforeComplete (accept 1 s)) hw
  rwa [complete_beforeComplete_fread hb hw] at h

end Sys2Proof.Operations
end

section
/-! PROOFS of the family 30_encoding: scripts (30_encoding R60, R61). -/

namespace Sys2Proof.Scripts

open Sys2Proof.Machine Sys2Proof.Safety Sys2Proof.Laws Sys2Proof.StateRules Sys2Proof.Encoding
  Sys2Proof.FrameRules Sys2Proof.Operations

/-! ### Operation lines -/

/-- A state in which a script's next line can be run. -/
structure Ready (s : State) : Prop where
  legal : s.build.legal = true
  wf : histWf s
  idle : s.seq = .idle

theorem cmdInstr_eq_decodeCmd (c : Cmd) : cmdInstr c = decodeCmd (cmdWord c) := by
  cases c <;> rfl

/-- What the operation `c` leaves when it is started in the idle state `s`. -/
def operationEffect : Cmd → State → State
  | .acq => acqEffect
  | .fread => freadEffect

theorem execRun_operation {s : State} (h : Ready s) (c : Cmd) :
    execRun operationEvents (cmdInstr c) s = .next (operationEffect c s) := by
  cases c with
  | acq => exact execRun_acq h.legal h.idle
  | fread => exact execRun_fread h.legal h.wf h.idle

@[simp] theorem operationEffect_build (c : Cmd) (s : State) :
    (operationEffect c s).build = s.build := by cases c <;> rfl
@[simp] theorem operationEffect_seq (c : Cmd) (s : State) :
    (operationEffect c s).seq = .idle := by cases c <;> rfl
@[simp] theorem operationEffect_levels (c : Cmd) (s : State) :
    levels (operationEffect c s) = idleLevels := by cases c <;> rfl
@[simp] theorem operationEffect_oracle (c : Cmd) (s : State) :
    (operationEffect c s).oracle = s.oracle.tail := by cases c <;> rfl

theorem operationEffect_draws {s : State} (h : s.oracle ≠ []) (c : Cmd) :
    (operationEffect c s).draws = s.draws := by
  have he : (if s.oracle.isEmpty then s.draws + 8 else s.draws) = s.draws := by simp [h]
  cases c <;> exact he

theorem Ready.operationEffect {s : State} (h : Ready s) (c : Cmd) :
    Ready (operationEffect c s) := by
  obtain ⟨hb, hw, -⟩ := h
  cases c with
  | acq => exact ⟨hb, hw, rfl⟩
  | fread => exact ⟨hb, freadEffect_histWf hb hw, rfl⟩

theorem Ready.resetEngine {s : State} (hb : s.build.legal = true) : Ready (resetEngine s) := by
  have hn : 1 ≤ s.build.n := by simp_all [Build.legal]
  exact ⟨hb, resetEngine_histWf hn, rfl⟩

/-! ### A list of operations -/

/-- What a list of operations leaves, each started when the one before it is done. -/
def afterOperations : List Cmd → State → State
  | [], s => s
  | c :: cs, s => afterOperations cs (operationEffect c s)

/-- The results of a list of operations, in order. -/
def resultsOf : List Cmd → State → List Byte
  | [], _ => []
  | c :: cs, s => (operationEffect c s).result :: resultsOf cs (operationEffect c s)

theorem runLines_operations {cs : List Cmd} {results : List Byte} {s : State} (h : Ready s) :
    runLines (cs.map .op) results s = .done (afterOperations cs s) (results ++ resultsOf cs s) := by
  induction cs generalizing results s with
  | nil => simp [runLines, resultsOf, afterOperations]
  | cons c cs ih =>
    rw [List.map_cons, runLines_op_of_next (execRun_operation h c), ih (h.operationEffect c),
      List.append_assoc]
    rfl

theorem afterOperations_append_singleton (cs : List Cmd) (c : Cmd) (s : State) :
    afterOperations (cs ++ [c]) s = operationEffect c (afterOperations cs s) := by
  induction cs generalizing s with
  | nil => rfl
  | cons c' cs ih => exact ih _

theorem resultsOf_append_singleton (cs : List Cmd) (c : Cmd) (s : State) :
    resultsOf (cs ++ [c]) s = resultsOf cs s ++ [(afterOperations (cs ++ [c]) s).result] := by
  induction cs generalizing s with
  | nil => rfl
  | cons c' cs ih => exact congrArg _ (ih _)

theorem length_resultsOf (cs : List Cmd) (s : State) : (resultsOf cs s).length = cs.length := by
  induction cs generalizing s with
  | nil => rfl
  | cons c cs ih => rw [resultsOf, List.length_cons, ih, List.length_cons]

theorem Ready.afterOperations {cs : List Cmd} {s : State} (h : Ready s) :
    Ready (afterOperations cs s) := by
  induction cs generalizing s with
  | nil => exact h
  | cons c cs ih => exact ih (h.operationEffect c)

theorem afterOperations_build (cs : List Cmd) (s : State) :
    (afterOperations cs s).build = s.build := by
  induction cs generalizing s with
  | nil => rfl
  | cons c cs ih => exact (ih _).trans (operationEffect_build c s)

theorem afterOperations_oracle (cs : List Cmd) (s : State) :
    (afterOperations cs s).oracle = s.oracle.drop cs.length := by
  induction cs generalizing s with
  | nil => rfl
  | cons c cs ih => rw [afterOperations, ih, operationEffect_oracle, List.drop_tail]; rfl

/-! ### The filter over a list of operations (41_filter R92) -/

/-- The bytes that answer the FREADs. -/
def freadSamples (ops : List (Cmd × Byte)) : List Byte :=
  (ops.filter fun o => decide (o.1 = .fread)).map Prod.snd

theorem freadSamples_append (xs ys : List (Cmd × Byte)) :
    freadSamples (xs ++ ys) = freadSamples xs ++ freadSamples ys := by
  simp [freadSamples]

theorem filterRun_append_singleton (n : Nat) (st : FilterState) (v : Nat) (xs : List Byte)
    (x : Byte) : filterRun n st v (xs ++ [x]) = filterStep n (filterRun n st v xs).1 x := by
  induction xs generalizing st v with
  | nil => rfl
  | cons r xs ih => exact ih _ _

theorem result_freadEffect {s : State} {r : Byte} (hw : histWf s) (h : nextSample s = r) :
    (freadEffect s).result.toNat = (filterStep s.build.n (filterOf s) r).2 := by
  rw [← h]
  exact Nat.mod_eq_of_lt (filterStep_value_lt hw.1 _)

theorem filterOf_freadEffect {s : State} {r : Byte} (h : nextSample s = r) :
    filterOf (freadEffect s) = (filterStep s.build.n (filterOf s) r).1 := by
  rw [← h]
  rfl

theorem nextSample_of_oracle {s : State} {r : Byte} {rest : List Byte} (h : s.oracle = r :: rest) :
    nextSample s = r := by
  rw [nextSample, h]

/-- The ACQs leave no trace in the filter, the FREADs feed it their bytes (40_acquisition R78). -/
theorem filterOf_afterOperations {ops : List (Cmd × Byte)} {rest : List Byte} {s : State} (v : Nat)
    (h : s.oracle = ops.map Prod.snd ++ rest) :
    filterOf (afterOperations (ops.map Prod.fst) s) =
      (filterRun s.build.n (filterOf s) v (freadSamples ops)).1 := by
  induction ops generalizing s v with
  | nil => rfl
  | cons o ops ih =>
    obtain ⟨c, r⟩ := o
    have htail : (operationEffect c s).oracle = ops.map Prod.snd ++ rest := by
      rw [operationEffect_oracle, h]
      rfl
    cases c with
    | acq => exact ih v htail
    | fread =>
      have hr : nextSample s = r := nextSample_of_oracle h
      have := ih (s := operationEffect .fread s) (filterStep s.build.n (filterOf s) r).2 htail
      rw [operationEffect, filterOf_freadEffect hr] at this
      exact this

/-! ### Which scripts are legal (30_encoding R61) -/

theorem firstError_dev {bytes : List Byte} {ls : List ScriptLine} (h : bytes ≠ []) :
    Script.firstError (.dev bytes :: ls) =
      Script.firstErrorFrom false (some bytes.length) ls := by
  simp [Script.firstError, Script.firstErrorFrom, ScriptLine.error, h, ScriptLine.resultStands,
    ScriptLine.bytesLeft]

/-- Operations use up one byte each. -/
theorem firstErrorFrom_operations (before : Bool) (left : Nat) (cs : List Cmd) :
    Script.firstErrorFrom before (some left) (cs.map .op) =
      if cs.length ≤ left then none else some .devUsedUp := by
  induction cs generalizing before left with
  | nil => rfl
  | cons c cs ih =>
    cases left with
    | zero => rfl
    | succ left =>
      refine (ih true left).trans ?_
      simp

theorem firstError_dev_operations {bytes : List Byte} (h : bytes ≠ []) (cs : List Cmd) :
    Script.firstError (.dev bytes :: cs.map .op) =
      if cs.length ≤ bytes.length then none else some .devUsedUp := by
  rw [firstError_dev h, firstErrorFrom_operations]

/-- A second EXPECT in a row speaks of no operation. -/
theorem firstErrorFrom_expect_expect (before : Bool) (left : Option Nat) (ls : List ScriptLine)
    (v w : Byte) : Script.firstErrorFrom before left (ls ++ [.expect v, .expect w]) ≠ none := by
  induction ls generalizing before left with
  | nil => cases before <;> simp [Script.firstErrorFrom, ScriptLine.error, ScriptLine.resultStands]
  | cons l ls ih =>
    intro h
    exact ih _ _ (firstErrorFrom_cons_eq_none.1 h).2

/-! ### A script of one DEV line and operations -/

/-- The state after the line `DEV bytes`. -/
def afterDev (bytes : List Byte) (s : State) : State := { s with oracle := bytes }

theorem runScript_dev {bytes : List Byte} {ls : List ScriptLine} {s : State}
    (h : Script.firstError (.dev bytes :: ls) = none) :
    runScript (.dev bytes :: ls) s = runLines ls [] (afterDev bytes s) := by
  rw [runScript, h]
  rfl

theorem runScript_dev_operations {bytes : List Byte} {cs : List Cmd} {s : State}
    (hne : bytes ≠ []) (hl : cs.length ≤ bytes.length) (h : Ready s) :
    runScript (.dev bytes :: cs.map .op) s =
      .done (afterOperations cs (afterDev bytes s)) (resultsOf cs (afterDev bytes s)) := by
  have herr : Script.firstError (.dev bytes :: cs.map .op) = none := by
    rw [firstError_dev_operations hne, if_pos hl]
  rw [runScript_dev herr]
  exact runLines_operations ⟨h.legal, h.wf, h.idle⟩

/-- Settles O37: the state before the last operation has the filter of the FREADs so far, and its
next sample is the last byte. -/
theorem scriptFeedsTheFilter : Obligations.ScriptFeedsTheFilter := by
  intro ops c r s v hb hw hq all samples
  let u : State := afterDev (all.map Prod.snd) s
  let cs : List Cmd := ops.map Prod.fst
  have hu : Ready u := ⟨hb, hw, hq⟩
  have hoperations : (all.map fun o => ScriptLine.op o.1) = (cs ++ [c]).map .op := by
    simp [all, cs, Function.comp_def]
  have hrun : runScript (.dev (all.map Prod.snd) :: all.map fun o => .op o.1) s =
      .done (afterOperations (cs ++ [c]) u) (resultsOf (cs ++ [c]) u) := by
    rw [hoperations]
    exact runScript_dev_operations (by simp [all]) (by simp [all, cs]) ⟨hb, hw, hq⟩
  have hlast : afterOperations (cs ++ [c]) u = operationEffect c (afterOperations cs u) :=
    afterOperations_append_singleton cs c u
  have hsample : nextSample (afterOperations cs u) = r := by
    apply nextSample_of_oracle (rest := [])
    rw [afterOperations_oracle]
    simp [u, cs, all, afterDev]
  refine ⟨_, _, hrun, ?_, ?_, ?_, ?_, ?_, ?_, ?_⟩
  · rw [hlast, operationEffect_seq]
  · rw [hlast, operationEffect_levels]
  · simp [length_resultsOf, cs, all]
  · rw [resultsOf_append_singleton, List.getLast?_concat]
  · have hall : cs ++ [c] = all.map Prod.fst := by simp [cs, all]
    rw [hall]
    exact filterOf_afterOperations (rest := []) v (List.append_nil _).symm
  · rintro rfl
    rw [hlast]
    exact hsample
  · rintro rfl
    have hsamples : samples = freadSamples ops ++ [r] := by simp [samples, all, freadSamples]
    have hfilter : filterOf (afterOperations cs u) =
        (filterRun s.build.n (filterOf s) v (freadSamples ops)).1 :=
      filterOf_afterOperations (s := u) (rest := [r]) v (by simp [u, all, afterDev])
    have hbuild : s.build = (afterOperations cs u).build := (afterOperations_build cs u).symm
    rw [hlast, hsamples, filterRun_append_singleton, ← hfilter, hbuild]
    exact result_freadEffect hu.afterOperations.wf hsample

/-! ### Any script under DEV (30_encoding R61) -/

/-- A run that began with `d` free values drawn ends idle with no more drawn, or at an EXPECT that
is not met. -/
def EndsCovered (d : Nat) (e : ScriptEnd) : Prop :=
  (∃ t results, e = .done t results ∧ t.seq = .idle ∧ t.draws = d) ∨
    ∃ expected got, e = .unmet expected got

/-- The fields of the environment that count the answers still fixed and the free values drawn. -/
abbrev SameAnswers (s t : State) : Prop := t.oracle = s.oracle ∧ t.draws = s.draws

theorem offer_iterate_build (op : Bit) (m : Nat) (s : State) :
    ((offer op)^[m] s).build = s.build := by
  induction m generalizing s with
  | zero => rfl
  | succ m ih => rw [Function.iterate_succ_apply, ih, offer_build]

/-- Past step 0 of an answered frame, no event takes a byte or draws a free value. -/
theorem sameAnswers_offer_iterate (op : Bit) {m : Nat} {s : State} {k : Fin 38}
    (hq : s.seq = .step k) (hk : k ≠ 0) (ha : s.answer ≠ none) (hm : k.val + m ≤ 37) :
    SameAnswers s ((offer op)^[m] s) := by
  induction m generalizing s k with
  | zero => exact ⟨rfl, rfl⟩
  | succ m ih =>
    obtain ⟨hk37, hk0, hsucc⟩ := position_succ (k := k) (by omega)
    obtain ⟨hans, horacle⟩ := seqStep_environment hk s
    rw [Function.iterate_succ_apply, offer_step hq]
    obtain ⟨ho, hd⟩ :=
      ih (s := seqStep k s) (nextSeq_of_ne hk37) hk0 (by rwa [hans]) (by omega)
    exact ⟨ho.trans horacle, hd.trans (seqStep_draws_of_answered ha)⟩

/-- An operation that is cut short before step `k` has taken a byte if it has performed step 0, and
has drawn nothing if there was one (log 16). -/
theorem cut_operation_answers (op : Bit) (k : Fin 38) {s : State} (hq : s.seq = .idle)
    (h : k.val ≠ 0 → s.oracle ≠ []) :
    ((offer op)^[1 + k.val] s).oracle = (if k.val = 0 then s.oracle else s.oracle.tail) ∧
      ((offer op)^[1 + k.val] s).draws = s.draws := by
  rw [Nat.add_comm, Function.iterate_succ_apply, offer_idle hq]
  obtain ⟨m, hm⟩ := k
  cases m with
  | zero => exact ⟨rfl, rfl⟩
  | succ m =>
    have hanswer : (seqStep 0 (accept op s)).answer ≠ none := by
      simpa [seqStep, stepAction, show stepKind 0 = .startCs from rfl] using h (Nat.succ_ne_zero m)
    rw [Function.iterate_succ_apply, offer_step rfl]
    exact sameAnswers_offer_iterate op (k := 1) (s := seqStep 0 (accept op s)) rfl (by decide)
      hanswer (by show 1 + m ≤ 37; omega)

/-- What one line of a script under DEV does: it goes on in a ready state that has drawn nothing and
has the bytes left that the line leaves, or it ends the run as an EXPECT that is not met. -/
theorem runLines_cons_covered {l : ScriptLine} {before : Bool} {s : State} (h : Ready s)
    (hl : l.error before (some s.oracle.length) = none) (rest : List ScriptLine)
    (results : List Byte) :
    (∃ t results', runLines (l :: rest) results s = runLines rest results' t ∧ Ready t ∧
      t.draws = s.draws ∧ l.bytesLeft (some s.oracle.length) = some t.oracle.length) ∨
    ∃ expected got, runLines (l :: rest) results s = .unmet expected got := by
  cases l with
  | op c =>
    have hne : s.oracle ≠ [] := by
      rintro ho
      simp [ScriptLine.error, ScriptLine.startsTransaction, ho] at hl
    refine .inl ⟨_, _, runLines_op_of_next (execRun_operation h c), h.operationEffect c,
      operationEffect_draws hne c, ?_⟩
    simp [ScriptLine.bytesLeft, ScriptLine.startsTransaction]
  | comment text => exact .inl ⟨s, results, rfl, h, rfl, rfl⟩
  | reset => exact .inl ⟨_, _, rfl, .resetEngine h.legal, rfl, rfl⟩
  | resetDuring c k =>
    have hne : k.val ≠ 0 → s.oracle ≠ [] := by
      rintro hk ho
      simp [ScriptLine.error, ScriptLine.startsTransaction, ho, hk] at hl
    have hrun : execRun (1 + k.val) (cmdInstr c) s = .next ((offer (cmdWord c))^[1 + k.val] s) := by
      rw [cmdInstr_eq_decodeCmd, execRun_command _ _ h.legal]
    obtain ⟨ho, hd⟩ := cut_operation_answers (cmdWord c) k h.idle hne
    refine .inl ⟨_, _, runLines_resetDuring_of_next hrun,
      .resetEngine (by rw [offer_iterate_build]; exact h.legal), hd, ?_⟩
    rw [resetEngine_oracle, ho]
    by_cases hk : k.val = 0 <;> simp [ScriptLine.bytesLeft, ScriptLine.startsTransaction, hk]
  | dev bytes => exact .inl ⟨afterDev bytes s, results, rfl, ⟨h.legal, h.wf, h.idle⟩, rfl, rfl⟩
  | expect v =>
    by_cases hv : s.result = v
    · exact .inl ⟨s, results, if_pos hv, h, rfl, rfl⟩
    · exact .inr ⟨v, s.result, if_neg hv⟩

theorem runLines_covered {ls : List ScriptLine} {before : Bool} {s : State} (h : Ready s)
    (hl : Script.firstErrorFrom before (some s.oracle.length) ls = none) (results : List Byte) :
    EndsCovered s.draws (runLines ls results s) := by
  induction ls generalizing before s results with
  | nil => exact .inl ⟨s, results, rfl, h.idle, rfl⟩
  | cons l ls ih =>
    obtain ⟨hfirst, hrest⟩ := firstErrorFrom_cons_eq_none.1 hl
    rcases runLines_cons_covered h hfirst ls results with
      ⟨t, results', hrun, ht, hd, hleft⟩ | hunmet
    · rw [hrun, ← hd]
      exact ih ht (hleft ▸ hrest) results'
    · exact .inr hunmet

/-- Settles O60: the two legality clauses are about the first error alone; a legal script under DEV
has a byte for every transaction it starts. -/
theorem devAnswersEverySample : Obligations.DevAnswersEverySample := by
  refine ⟨fun bytes cs hne => ?_, fun bytes cs s hne hl => ?_, fun ls v w => ?_,
    fun bytes ls s hb hw hq hwf => ?_⟩
  · rw [script_wellFormed_iff, firstError_dev_operations hne]
    split <;> simp_all
  · exact runScript_of_error (by rw [firstError_dev_operations hne, if_neg (Nat.not_le.2 hl)])
  · rw [← Bool.not_eq_true, script_wellFormed_iff]
    exact firstErrorFrom_expect_expect false none ls v w
  · have herr := script_wellFormed_iff.1 hwf
    obtain ⟨-, hrest⟩ := firstErrorFrom_cons_eq_none.1 herr
    rw [runScript_dev herr]
    exact runLines_covered (s := afterDev bytes s) ⟨hb, hw, hq⟩ hrest []

end Sys2Proof.Scripts
end

section
/-! PROOFS of the family 40_acquisition: the events of a command, what they show on the lines, and
that the lines depend on nothing sampled. -/

namespace Sys2Proof.Acquisition

open Sys2Proof.Machine Sys2Proof.Safety Sys2Proof.Laws Sys2Proof.StateRules Sys2Proof.Encoding
  Sys2Proof.FrameRules Sys2Proof.Operations

/-! ### The lines do not depend on what is sampled (40_acquisition R82, 41_filter R124) -/

/-- Every move of a legal build is a step: the converse of `step_next_move`. -/
theorem step_of_move {s t : State} (hb : s.build.legal = true) (m : Move s t) :
    step s = .next t := by
  have hn := (buildRefusal_none_iff s.build).2 hb
  cases m with
  | reset hr => simp [step, tickKind, hn, hr]
  | pause hr hc hp => simp [step, tickKind, hn, hr, hc, hp]
  | quiet hr hp hq hv =>
    simp [step, tickKind, hn, hr, contended, busy, hq, hp, currentInstr_idle hq, hv]
  | accept hr hp hq hv =>
    have hc : contended s = false := by simp [contended, busy, hq]
    have hi : currentInstr s = some (decodeCmd (hostInput s).cmdOp) := by
      rw [currentInstr_idle hq, if_pos hv]
    rw [step_of_run (tickKind_run_iff.2 ⟨hb, hr, hc, hp, hi⟩), exec_decodeCmd,
      offer_idle (show (takeInput s).seq = .idle from hq)]
    exact onLegalBuild_of_legal hb _
  | perform k hr hc hp hq =>
    rw [step_of_run (tickKind_run_iff.2 ⟨hb, hr, hc, hp, currentInstr_step hq⟩),
      exec_decodeCmd_of_step _ (show (takeInput s).seq = .step k from hq)]
    exact onLegalBuild_of_legal hb _

/-- What the lines can depend on of a tick's host levels: not which operation is offered. -/
def disturbance (h : HostInput) : Bool × Bool × Bool := (h.rst, h.cmdValid, h.foreign)

/-- The two states agree on the lines and on all that the lines to come depend on. -/
structure SameOutputs (s s' : State) : Prop where
  lines : levels s = levels s'
  position : s.seq = s'.seq
  pause : s.ptmr = s'.ptmr
  build : s.build = s'.build
  hosts : s.host.map disturbance = s'.host.map disturbance

namespace SameOutputs

variable {s s' : State}

theorem disturbance_hostInput (h : SameOutputs s s') :
    disturbance (hostInput s) = disturbance (hostInput s') := by
  have hh := h.hosts
  unfold hostInput
  cases hs : s.host <;> cases hs' : s'.host <;> simp_all

theorem takeInput (h : SameOutputs s s') : SameOutputs (takeInput s) (takeInput s') where
  lines := h.lines
  position := h.position
  pause := h.pause
  build := h.build
  hosts := by simpa [List.map_tail] using congrArg List.tail h.hosts

theorem resetEngine (h : SameOutputs s s') : SameOutputs (resetEngine s) (resetEngine s') where
  lines := rfl
  position := rfl
  pause := rfl
  build := h.build
  hosts := h.hosts

theorem waitTick (h : SameOutputs s s') : SameOutputs (waitTick s) (waitTick s') where
  lines := h.lines
  position := h.position
  pause := congrArg (· - 1) h.pause
  build := h.build
  hosts := h.hosts

theorem accept (h : SameOutputs s s') (op op' : Bit) :
    SameOutputs (accept op s) (accept op' s') where
  lines := h.lines
  position := rfl
  pause := h.pause
  build := h.build
  hosts := h.hosts

/-- A step drives the line of its row, whatever its action samples or computes. -/
theorem seqStep (h : SameOutputs s s') (k : Fin 38) : SameOutputs (seqStep k s) (seqStep k s') where
  lines := by
    rw [seqStep_levels, seqStep_levels, levels_writeLine, levels_writeLine, h.lines]
  position := rfl
  pause := by rw [seqStep_ptmr, seqStep_ptmr, h.build]
  build := by rw [seqStep_build, seqStep_build, h.build]
  hosts := by rw [seqStep_host, seqStep_host, h.hosts]

/-- What one of the two states can do, the other can do as well, to the same outputs. -/
theorem move (h : SameOutputs s s') {t : State} (m : Move s t) :
    ∃ t', Move s' t' ∧ SameOutputs t t' := by
  obtain ⟨er, ev, ef⟩ : (hostInput s).rst = (hostInput s').rst ∧
      (hostInput s).cmdValid = (hostInput s').cmdValid ∧
      (hostInput s).foreign = (hostInput s').foreign := by
    simpa [disturbance] using h.disturbance_hostInput
  have ec : contended s = contended s' := by
    rw [contended, contended, busy, busy, h.position, ef]
  cases m with
  | reset hr => exact ⟨_, .reset (er ▸ hr), h.takeInput.resetEngine⟩
  | pause hr hc hp =>
    exact ⟨_, .pause (er ▸ hr) (ec ▸ hc) (h.pause ▸ hp), h.takeInput.waitTick⟩
  | quiet hr hp hq hv =>
    exact ⟨_, .quiet (er ▸ hr) (h.pause ▸ hp) (h.position ▸ hq) (ev ▸ hv), h.takeInput⟩
  | accept hr hp hq hv =>
    exact ⟨_, .accept (er ▸ hr) (h.pause ▸ hp) (h.position ▸ hq) (ev ▸ hv),
      h.takeInput.accept _ _⟩
  | perform k hr hc hp hq =>
    exact ⟨_, .perform k (er ▸ hr) (ec ▸ hc) (h.pause ▸ hp) (h.position ▸ hq),
      h.takeInput.seqStep k⟩

theorem step (h : SameOutputs s s') {t : State} (e : step s = .next t) :
    ∃ t', Machine.step s' = .next t' ∧ SameOutputs t t' := by
  obtain ⟨hb, m⟩ := step_next_move e
  obtain ⟨t', m', h'⟩ := h.move m
  exact ⟨t', step_of_move (h.build ▸ hb) m', h'⟩

theorem stepRun (h : SameOutputs s s') {m : Nat} {t : State} (e : stepRun m s = .next t) :
    ∃ t', Machine.stepRun m s' = .next t' ∧ SameOutputs t t' := by
  induction m generalizing s s' with
  | zero =>
    obtain rfl : s = t := Host.Outcome.next.inj e
    exact ⟨s', rfl, h⟩
  | succ m ih =>
    obtain ⟨u, hu, hr⟩ := stepRun_succ_next e
    obtain ⟨u', hu', h'⟩ := h.step hu
    rw [stepRun_succ_of_next hu']
    exact ih h' hr

end SameOutputs

/-- Settles O58: `SameOutputs` is kept by every move, and so by every run. -/
theorem outputsIndependentOfTheInput : Obligations.OutputsIndependentOfTheInput := by
  intro m s s' t hl hq hp hb hh e
  obtain ⟨t', e', h⟩ := SameOutputs.stepRun ⟨hl, hq, hp, hb, hh⟩ e
  exact ⟨t', e', h.lines, h.position, h.pause⟩

/-! ### Pauses, and `DIN` while `CLK` is high -/

/-- Settles O45: the move of a running pause; a tick that runs an instruction has no pause. -/
theorem pauseChangesNothing : Obligations.PauseChangesNothing := by
  intro s hb hr hc hp
  refine ⟨step_of_move hb (.pause hr hc hp), ?_⟩
  rw [Bool.eq_false_iff]
  intro hv
  obtain ⟨⟨i, hk⟩, -⟩ := rspValid_iff.1 hv
  obtain ⟨-, -, -, hp0, -⟩ := tickKind_run_iff.1 hk
  exact hp hp0

/-- Where the invariant has the three lines at a position (10_state R31, 40_acquisition R63). -/
theorem lines_of_inv {s : State} {q : Seq} {l : Levels} (h : Inv s) (hq : s.seq = q)
    (hl : levelsDue q = l) : s.csN = l.csN ∧ s.clk = l.clk ∧ s.din = l.din := by
  obtain ⟨-, -, -, hd, -, -⟩ := h
  obtain rfl : levels s = l := by rw [hd, hq, hl]
  exact ⟨rfl, rfl, rfl⟩

/-- Where `CLK` is due high the converter is selected, and the row makes no change of `DIN`
(40_acquisition R81). -/
theorem levelsDue_of_clk_high : ∀ k : Fin 38, (levelsDue (.step k)).clk = 1 →
    (levelsDue (.step k)).csN = 0 ∧ (levelsDue (nextSeq k)).din = (levelsDue (.step k)).din := by
  decide

theorem position_of_clk_high {s : State} (h : Inv s) (hc : s.clk = 1) :
    ∃ k, s.seq = .step k ∧ (levelsDue (.step k)).clk = 1 := by
  cases hq : s.seq with
  | idle =>
    obtain ⟨-, h0, -⟩ := lines_of_inv h hq rfl
    rw [hc] at h0
    exact absurd h0 (by decide)
  | step k =>
    obtain ⟨-, h1, -⟩ := lines_of_inv h hq rfl
    exact ⟨k, rfl, h1 ▸ hc⟩

/-- Settles O57: of the moves without reset only a performed step writes a line, and no row of the
table that finds `CLK` high changes `DIN`. -/
theorem dinStableWhileClockHigh : Obligations.DinStableWhileClockHigh := by
  intro s t h e hr hc
  obtain ⟨k, hq, hk⟩ := position_of_clk_high h hc
  obtain ⟨hcs, hdin⟩ := levelsDue_of_clk_high k hk
  obtain ⟨ecs, -, ed⟩ := lines_of_inv h hq rfl
  refine ⟨?_, ecs.trans hcs⟩
  cases (step_next_move e).2 with
  | reset hr' => simp [hr] at hr'
  | pause | quiet | accept => rfl
  | perform k' _ _ _ hq' =>
    obtain rfl : k = k' := Seq.step.inj (hq.symm.trans hq')
    obtain ⟨-, -, ed'⟩ := lines_of_inv (inv_seqStep (s := takeInput s) h hq) (seqStep_seq k _) rfl
    rw [ed', hdin, ed]

/-! ### One event of a command -/

theorem exists_decodeCmd_of_isHostCommand {i : Instr} (hi : i.isHostCommand = true) :
    ∃ op, i = decodeCmd op := by
  cases i with
  | acq => exact ⟨0, rfl⟩
  | fread => exact ⟨1, rfl⟩
  | frame d => simp [Instr.isHostCommand] at hi

/-- The event of a command in flight, whichever it is, is the step of the sequencer. -/
theorem exec_of_step {i : Instr} {s : State} {k : Fin 38} (hi : i.isHostCommand = true)
    (hb : s.build.legal = true) (hq : s.seq = .step k) : exec i s = .next (seqStep k s) := by
  obtain ⟨op, rfl⟩ := exists_decodeCmd_of_isHostCommand hi
  rw [exec_decodeCmd_of_step op hq, onLegalBuild_of_legal hb]

/-- Settles O8: a command is accepted by `offer` in an idle state. -/
theorem acceptanceStartsTheOperation : Obligations.AcceptanceStartsTheOperation := by
  intro s hb hq
  refine ⟨execAcq_next_iff.2 ⟨hb, ?_⟩, execFread_next_iff.2 ⟨hb, ?_⟩, rfl⟩
  · rw [offer_idle hq, accept]
  · rw [offer_idle hq, accept]

/-- The pause column marks exactly the rows that write a line (40_acquisition R75). -/
theorem stepPause_eq_isSome_stepWrite (a : StepKind) : stepPause a = (stepWrite a).isSome := by
  cases a <;> rfl

/-- Settles O7: the event is the step of the sequencer, which follows its row. -/
theorem everyStepFollowsTheTable : Obligations.EveryStepFollowsTheTable := by
  rintro i s k hi ⟨hb, -, -, hl, -, -⟩ hq
  refine ⟨seqStep k s, exec_of_step hi hb hq, levels_seqStep_of_linesDue hq hl, ?_, ?_⟩
  · rw [seqStep_ptmr, stepPause_eq_isSome_stepWrite]
  · by_cases hk : k = 37
    · subst hk
      rfl
    · rw [if_neg hk, seqStep_seq, nextSeq_of_ne hk]

/-- The event of a command at a position whose row is `a`: the columns of that row, from state to
state (40_acquisition R63). -/
theorem exec_of_row {i : Instr} {s : State} {k : Fin 38} {a : StepKind}
    (hi : i.isHostCommand = true) (h : Inv s) (hq : s.seq = .step k) (ha : stepKind k = a)
    (hk : a ≠ .complete) :
    exec i s = .next
      (goTo (.step (k + 1))
        (startPause (stepPause a) (writeLine (stepWrite a) (stepAction a s)))) := by
  obtain ⟨hb, -⟩ := h
  subst ha
  have hn : nextSeq k = .step (k + 1) := nextSeq_of_ne fun e => hk ((stepKind_complete_iff k).2 e)
  rw [exec_of_step hi hb hq, seqStep, hn]

/-- Settles O9: rows START-CS and START-CLK. -/
theorem startStepsSelectTheConverter : Obligations.StartStepsSelectTheConverter := by
  refine fun i s hi h => ⟨fun hq => ?_, fun hq => ?_⟩
  · obtain ⟨hcs, -, -⟩ := lines_of_inv h hq rfl
    exact ⟨hcs, exec_of_row hi h hq rfl (by decide)⟩
  · obtain ⟨-, hclk, -⟩ := lines_of_inv h hq rfl
    exact ⟨hclk, exec_of_row hi h hq rfl (by decide)⟩

/-- Settles O10: rows HDR-SETUP. -/
theorem headerSetupDrivesDin : Obligations.HeaderSetupDrivesDin := by
  refine fun i s hi h => ⟨fun hq => ?_, fun hq => ?_, fun hq => ?_⟩ <;>
    obtain ⟨-, hclk, hdin⟩ := lines_of_inv h hq rfl <;>
    exact ⟨hclk, hdin, exec_of_row hi h hq rfl (by decide)⟩

/-- Settles O11: rows HDR-RISE. -/
theorem headerRiseLatchesTheBit : Obligations.HeaderRiseLatchesTheBit := by
  refine fun i s hi h => ⟨fun hq => ?_, fun hq => ?_, fun hq => ?_⟩ <;>
    obtain ⟨-, hclk, hdin⟩ := lines_of_inv h hq rfl <;>
    exact ⟨hclk, hdin, exec_of_row hi h hq rfl (by decide)⟩

/-- Settles O12: rows HDR-FALL, and row RELEASE. -/
theorem headerFallAndRelease : Obligations.HeaderFallAndRelease := by
  refine fun i s hi h => ⟨?_, fun hq => ?_⟩
  · rintro k (rfl | rfl | rfl) hq <;>
      obtain ⟨-, hclk, -⟩ := lines_of_inv h hq rfl <;>
      exact ⟨hclk, exec_of_row hi h hq rfl (by decide)⟩
  · obtain ⟨-, hclk, hdin⟩ := lines_of_inv h hq rfl
    exact ⟨hclk, hdin, exec_of_row hi h hq rfl (by decide)⟩

/-! ### The result pulses (40_acquisition R70 to R72) -/

theorem eq_pulseStep {q : Fin 38} {j : Fin 8} {i : Fin 3} (h : q.val = 12 + i.val + 3 * j.val) :
    q = pulseStep j i :=
  Fin.ext (by simp only [pulseStep]; omega)

/-- A result pulse finds `CLK` low at its rise, and high at its sample and its fall. -/
theorem levelsDue_pulseStep : ∀ j : Fin 8,
    levelsDue (.step (pulseStep j 0)) = { csN := 0, clk := 0, din := 1 } ∧
      levelsDue (.step (pulseStep j 1)) = { csN := 0, clk := 1, din := 1 } ∧
      levelsDue (.step (pulseStep j 2)) = { csN := 0, clk := 1, din := 1 } := by
  decide

/-- Settles O13: rows RSP-RISE. -/
theorem responseRise : Obligations.ResponseRise := by
  intro i s k q hi h hv hq
  obtain rfl := eq_pulseStep (i := 0) hv
  obtain ⟨ha, -, -⟩ := stepKind_pulseStep k
  obtain ⟨hl, -, -⟩ := levelsDue_pulseStep k
  obtain ⟨-, hclk, hdin⟩ := lines_of_inv h hq hl
  exact ⟨hclk, hdin, exec_of_row hi h hq ha nofun⟩

theorem sampleBit_of_answered {k : Fin 8} {s : State} {p : Byte} (h : s.answer = some p) :
    sampleBit k s = { s with shift := shiftIn s.shift (answerBit p k) } := by
  simp [sampleBit, pinRead, drawn, h]

theorem sampleBit_of_free {k : Fin 8} {s : State} (h : s.answer = none) :
    sampleBit k s =
      { s with shift := shiftIn s.shift (Config.dout s.draws), draws := s.draws + 1 } := by
  simp [sampleBit, pinRead, drawn, h]

/-- Settles O14: rows RSP-SAMPLE, for either form of the answer. -/
theorem responseSample : Obligations.ResponseSample := by
  intro i s k q hi h hv hq
  obtain rfl := eq_pulseStep (i := 1) hv
  obtain ⟨-, ha, -⟩ := stepKind_pulseStep k
  obtain ⟨-, hl, -⟩ := levelsDue_pulseStep k
  obtain ⟨-, hclk, -⟩ := lines_of_inv h hq hl
  have he := exec_of_row hi h hq ha nofun
  refine ⟨hclk, fun p hp => ?_, fun hp => ?_⟩
  · rw [he, stepAction, sampleBit_of_answered hp]
    rfl
  · rw [he, stepAction, sampleBit_of_free hp]
    rfl

/-- Settles O15: rows RSP-FALL; the levels due at 36, 37 and `IDLE` have `CLK` low. -/
theorem responseFall : Obligations.ResponseFall := by
  refine ⟨fun i s k q hi h hv hq => ?_, fun s h hq => ?_⟩
  · obtain rfl := eq_pulseStep (i := 2) hv
    obtain ⟨-, -, ha⟩ := stepKind_pulseStep k
    obtain ⟨-, -, hl⟩ := levelsDue_pulseStep k
    obtain ⟨-, hclk, -⟩ := lines_of_inv h hq hl
    exact ⟨hclk, exec_of_row hi h hq ha nofun⟩
  · rcases hq with hq | hq | hq <;>
      obtain ⟨-, hclk, -⟩ := lines_of_inv h hq rfl <;>
      exact hclk

/-! ### The end of an operation (40_acquisition R73, R74) -/

/-- Settles O16: row END-CS. -/
theorem endCsDeselects : Obligations.EndCsDeselects := by
  intro i s hi h hq
  obtain ⟨hcs, -, -⟩ := lines_of_inv h hq rfl
  exact ⟨hcs, exec_of_row hi h hq rfl (by decide)⟩

/-- Settles O17: COMPLETE of an ACQ; a tick at step 37 that nothing holds back runs it. -/
theorem completeAcqReturnsTheSample : Obligations.CompleteAcqReturnsTheSample := by
  rintro s ⟨hb, -, -, hl, -, -⟩ hq ho
  refine ⟨?_, by rw [hl, hq]; rfl, fun hr hf hp => ?_⟩
  · rw [exec_of_step rfl hb hq, seqStep_complete, complete, if_pos ho, completeAcq]
  · exact rspValid_iff.2 ⟨⟨_, tickKind_run_iff.2
      ⟨hb, hr, contended_of_undisturbed hf, hp, currentInstr_step hq⟩⟩, hq⟩

/-- Settles O38: the event of an ACQ is the acceptance, a step before COMPLETE, or COMPLETE of an
ACQ, which leaves the filter alone. -/
theorem acqFrame : Obligations.AcqFrame := by
  intro s t hop h
  obtain ⟨-, rfl⟩ := execAcq_next_iff.1 h
  cases hq : s.seq with
  | idle =>
    rw [offer_idle hq]
    exact ⟨⟨rfl, rfl, rfl⟩, fun _ => rfl, ⟨rfl, rfl⟩, fun _ => rfl, fun hn => absurd rfl hn,
      fun _ => ⟨rfl, rfl⟩⟩
  | step k =>
    have hop : s.opreg = 0 := hop.resolve_left (by simp [hq])
    rw [offer_step hq]
    have hs : sameSurroundings s (seqStep k s) := ⟨seqStep_build k s, seqStep_host k s⟩
    by_cases hk : k = 37
    · subst hk
      have hc : complete s = completeAcq s := if_pos hop
      exact ⟨complete_sameFilter hop, fun a => by rw [seqStep_complete, hc]; rfl, hs,
        fun hn => absurd rfl hn, fun _ => seqStep_opreg 37 s, nofun⟩
    · obtain ⟨hf, hread, hres⟩ := seqStep_filterFrame hk
      exact ⟨hf, hread, hs, fun _ => hres, fun _ => seqStep_opreg k s, nofun⟩

/-! ### `Assemble` (40_acquisition R77) -/

/-- Eight shifts discard all that `SHIFT` held before (10_state R19). -/
theorem foldl_shiftIn_eq_assemble (s : Byte) {ds : List Bit} (h : ds.length = 8) :
    ds.foldl shiftIn s = assemble ds := by
  apply BitVec.eq_of_toNat_eq
  match ds, h with
  | [d0, d1, d2, d3, d4, d5, d6, d7], _ =>
    simp only [toNat_assemble, List.foldl_cons, List.foldl_nil, toNat_shiftIn]
    omega

/-- Settles O6: the two inverses, the arithmetic of one shift, and the flush. -/
theorem assembleIsABijection : Obligations.AssembleIsABijection :=
  ⟨assemble_responseSlots, fun _ => responseSlots_assemble, toNat_shiftIn,
    fun s _ => foldl_shiftIn_eq_assemble s⟩

/-! ### Whole operations on the lines (40_acquisition R79, R80, R82) -/

/-- Settles O32: the run of an ACQ is acceptance, the blocks of the table and COMPLETE. -/
theorem acqCompletes : Obligations.AcqCompletes := fun _ => execRun_acq

theorem lineTrace_succ_of_next {m : Nat} {i : Instr} {s t : State} (h : exec i s = .next t) :
    lineTrace (m + 1) i s = levels t :: lineTrace m i t := by
  rw [lineTrace, h]

theorem drop_tableLevels : ∀ k : Fin 38,
    tableLevels.drop k.val = stepLevels (stepKind k) :: tableLevels.drop (k.val + 1) := by
  decide

/-- The rest of an operation shows the rest of the table, from any position on. -/
theorem lineTrace_of_step {i : Instr} {m : Nat} {s : State} {k : Fin 38}
    (hi : i.isHostCommand = true) (hb : s.build.legal = true) (hq : s.seq = .step k)
    (hl : linesDue s) (hm : k.val + m = 38) : lineTrace m i s = tableLevels.drop k.val := by
  induction m generalizing s k with
  | zero => omega
  | succ m ih =>
    have hrest : lineTrace m i (seqStep k s) = tableLevels.drop (k.val + 1) := by
      by_cases hk : k = 37
      · subst hk
        obtain rfl : m = 0 := by omega
        rfl
      · obtain ⟨-, -, hv⟩ := position_succ (k := k) (by omega)
        rw [← hv]
        exact ih ((congrArg _ (seqStep_build k s)).trans hb) (nextSeq_of_ne hk)
          (linesDue_seqStep hq hl) (by omega)
    rw [lineTrace_succ_of_next (exec_of_step hi hb hq), levels_seqStep_of_linesDue hq hl, hrest,
      drop_tableLevels]

/-- An operation shows the levels of acceptance and then those of the whole table. -/
theorem lineTrace_operation {i : Instr} {s : State} (hi : i.isHostCommand = true)
    (hb : s.build.legal = true) (hq : s.seq = .idle) (hl : levels s = idleLevels) :
    lineTrace operationEvents i s = idleLevels :: tableLevels := by
  obtain ⟨op, rfl⟩ := exists_decodeCmd_of_isHostCommand hi
  have he : exec (decodeCmd op) s = .next (accept op s) := by
    rw [exec_decodeCmd, offer_idle hq, onLegalBuild_of_legal hb]
  have htable : lineTrace 38 (decodeCmd op) (accept op s) = tableLevels :=
    lineTrace_of_step (k := 0) hi hb rfl hl rfl
  rw [operationEvents, lineTrace_succ_of_next he, htable]
  exact congrArg (· :: tableLevels) hl

/-- Settles O34: the trace is the table's, whose rises and transitions are then counted. -/
theorem operationLineTrace : Obligations.OperationLineTrace := by
  intro i s hi hb hq hl
  rw [lineTrace_operation hi hb hq hl, hl]
  exact ⟨rfl, by decide, by decide⟩

/-- Settles O36: the trace is the table's, and so are all the counts. -/
theorem transactionCounts : Obligations.TransactionCounts := by
  intro i s hi hb hq hl
  rw [lineTrace_operation hi hb hq hl, List.drop_succ_cons, List.drop_zero]
  decide

end Sys2Proof.Acquisition
end

section
/-! PROOFS of the family 41_filter: the sum and the mean, COMPLETE of a FREAD, and the history as a
ring. -/

namespace Sys2Proof.FilterRules

open Sys2Proof.Machine Sys2Proof.Safety Sys2Proof.Laws Sys2Proof.StateRules Sys2Proof.Operations
  Sys2Proof.Scripts Sys2Proof.Acquisition

/-! ### The exact sum of the entries (41_filter R93) -/

theorem legal_iff {b : Build} :
    b.legal = true ↔ 1 ≤ b.n ∧ 255 * b.n < 2 ^ b.accW ∧ 1 ≤ b.tSettle := by
  simp [Build.legal, and_assoc]

theorem exactSum_append (xs ys : List Byte) : exactSum (xs ++ ys) = exactSum xs + exactSum ys := by
  simp [exactSum]

theorem exactSum_replicate (m : Nat) (r : Byte) :
    exactSum (List.replicate m r) = m * r.toNat := by
  simp [exactSum]

theorem exactSum_eq_of_perm {xs ys : List Byte} (h : xs.Perm ys) : exactSum xs = exactSum ys :=
  (h.map _).sum_eq

/-- The mean of equal entries is the entry (41_filter R86). -/
theorem exactSum_replicate_div {n : Nat} (hn : 1 ≤ n) (r : Byte) :
    exactSum (List.replicate n r) / n = r.toNat := by
  rw [exactSum_replicate, Nat.mul_div_cancel_left _ hn]

/-- Settles O21: the bound of the sum, the accumulator's width, and that the exact sum, which the
accumulator holds, does not see the order. -/
theorem sumNeverOverflows : Obligations.SumNeverOverflows := by
  intro b h hb hl
  obtain ⟨-, hw, -⟩ := legal_iff.1 hb
  refine ⟨hl ▸ exactSum_le h, hw, toNat_accSum hb hl, fun h' hp => ?_, fun h16 => ?_⟩
  · apply BitVec.eq_of_toNat_eq
    rw [toNat_accSum hb (hp.length_eq.trans hl), toNat_accSum hb hl, exactSum_eq_of_perm hp]
  · rw [h16] at hw
    omega

/-! ### The truncated mean (41_filter R89) -/

theorem exactSum_div_le (h : List Byte) : exactSum h / h.length ≤ 255 :=
  Nat.div_le_of_le_mul (Nat.mul_comm 255 _ ▸ exactSum_le h)

theorem truncatedMean_eq {b : Build} {h : List Byte} (hb : b.legal = true) (hl : h.length = b.n) :
    truncatedMean b h = BitVec.ofNat 8 (exactSum h / b.n) := by
  rw [truncatedMean, toNat_accSum hb hl]

theorem toNat_truncatedMean {b : Build} {h : List Byte} (hb : b.legal = true)
    (hl : h.length = b.n) : (truncatedMean b h).toNat = exactSum h / b.n := by
  rw [truncatedMean_eq hb hl]
  exact Nat.mod_eq_of_lt (Nat.lt_succ_of_le (hl ▸ exactSum_div_le h))

/-- A sum of values between `lo` and `hi` lies between as many times `lo` and `hi`. -/
theorem exactSum_between {h : List Byte} {lo hi : Byte} (hh : ∀ e ∈ h, lo ≤ e ∧ e ≤ hi) :
    lo.toNat * h.length ≤ exactSum h ∧ exactSum h ≤ hi.toNat * h.length := by
  induction h with
  | nil => exact ⟨Nat.le_refl 0, Nat.le_refl 0⟩
  | cons e h ih =>
    obtain ⟨hlo, hhi⟩ := ih fun x hx => hh x (List.mem_cons_of_mem e hx)
    obtain ⟨helo, hehi⟩ := hh e List.mem_cons_self
    rw [BitVec.le_def] at helo hehi
    have hsum : exactSum (e :: h) = e.toNat + exactSum h := List.sum_cons
    rw [hsum, List.length_cons, Nat.mul_succ, Nat.mul_succ]
    omega

/-- Settles O22: floor and range from the exact sum, the extremes from its bounds, and the shift as
a division by a power of two. -/
theorem meanIsTruncatedAndBounded : Obligations.MeanIsTruncatedAndBounded := by
  intro b h hb hl
  obtain ⟨hn, -, -⟩ := legal_iff.1 hb
  have hmean := toNat_truncatedMean hb hl
  refine ⟨Nat.ne_of_gt hn, hmean, hl ▸ exactSum_div_le h, fun lo hi hh => ?_, fun m hm => ?_⟩
  · obtain ⟨hlo, hhi⟩ := exactSum_between hh
    rw [hl] at hlo hhi
    rw [BitVec.le_def, BitVec.le_def, hmean]
    exact ⟨(Nat.le_div_iff_mul_le hn).2 hlo, Nat.div_le_of_le_mul (Nat.mul_comm b.n _ ▸ hhi)⟩
  · rw [hmean, hm, Nat.shiftRight_eq_div_pow]

/-! ### The cursor (41_filter R90) -/

/-- `CUR_W` bits can name every entry (00_scope R8). -/
theorem le_two_pow_curW (b : Build) : b.n ≤ 2 ^ Config.curW b := by
  unfold Config.curW
  split
  · assumption
  · have := Nat.lt_log2_self (n := b.n - 1)
    omega

/-- Settles O23: the remainder names the next entry, and `CUR_W` bits hold any of them. -/
theorem cursorCountsModuloN : Obligations.CursorCountsModuloN := by
  intro s hw
  obtain ⟨-, hadv⟩ := advanceCursor_histWf hw
  exact ⟨mod_add_one_eq hw.2, hadv, hw.2.trans_le (le_two_pow_curW s.build)⟩

/-! ### COMPLETE of a FREAD (41_filter R85 to R88) -/

/-- Step 37 of a FREAD does the filter update and makes the engine idle. -/
theorem exec_fread_complete {s : State} (hb : s.build.legal = true) (hq : s.seq = .step 37)
    (ho : s.opreg = 1) :
    exec .fread s = .next { completeFread s with ptmr := 0, seq := .idle } := by
  have hc : complete s = completeFread s := if_neg (by simp [ho])
  rw [exec_of_step rfl hb hq, seqStep_complete, hc]

/-- Settles O18: the update of a cold filter, and the mean of equal entries. -/
theorem completeFreadColdStart : Obligations.CompleteFreadColdStart := by
  intro s hb hq ho hi
  obtain ⟨hn, -, -⟩ := legal_iff.1 hb
  have hc : completeFread s = coldStart s.shift s := if_neg (by simp [hi])
  refine ⟨?_, exactSum_replicate_div hn s.shift⟩
  rw [exec_fread_complete hb hq ho, hc]
  rfl

/-- Settles O19: the update of an initialized filter, whose accumulator holds the exact sum. -/
theorem completeFreadSteadyState : Obligations.CompleteFreadSteadyState := by
  intro s hb hw hq ho hi
  have hc : completeFread s = steadyState s.shift s := if_pos hi
  have hl : (s.hist.set s.cur s.shift).length = s.build.n := List.length_set.trans hw.1
  rw [exec_fread_complete hb hq ho, hc, ← truncatedMean_eq hb hl]
  rfl

/-- Settles O20: the update is `FilterStep`, whose value fits `RESULT`. -/
theorem freadIsFilterStep : Obligations.FreadIsFilterStep := by
  intro s hb hw hq ho
  rw [exec_fread_complete hb hq ho, completeFread_eq hb hw]
  exact ⟨_, rfl, rfl, Nat.mod_eq_of_lt (filterStep_value_lt hw.1 s.shift)⟩

/-- Settles O33: the run of a FREAD is acceptance, the frame and COMPLETE. -/
theorem freadCompletes : Obligations.FreadCompletes := fun _ => execRun_fread

/-! ### The history as a ring (41_filter R90 to R92)

Read from the cursor on, the history is the last `N` samples, the oldest first. -/

theorem filterStep_cold {n : Nat} {st : FilterState} (hf : st.f = false) (r : Byte) :
    filterStep n st r = ({ h := List.replicate n r, c := 0, f := true }, r.toNat) :=
  if_pos hf

theorem filterStep_steady {n : Nat} {st : FilterState} (hf : st.f = true) (r : Byte) :
    filterStep n st r =
      ({ h := st.h.set st.c r, c := if st.c = n - 1 then 0 else st.c + 1, f := true },
        exactSum (st.h.set st.c r) / n) :=
  if_neg (by simp [hf])

/-- Storing at the cursor and advancing it drops the oldest entry and appends the new one. -/
theorem rotate_succ_set {h : List Byte} {c : Nat} (hc : c < h.length) (x : Byte) :
    (h.set c x).rotate (c + 1) = (h.rotate c).tail ++ [x] := by
  have hs : (h.set c x).rotate c = x :: (h.rotate c).tail := by
    have hc' : c < (h.set c x).length := by rwa [List.length_set]
    rw [List.rotate_eq_drop_append_take hc'.le, List.rotate_eq_drop_append_take hc.le,
      List.drop_eq_getElem_cons hc', List.drop_eq_getElem_cons hc, List.getElem_set_self,
      List.drop_set_of_lt (Nat.lt_succ_self c), List.take_set_of_le (Nat.le_refl c)]
    rfl
  rw [← List.rotate_rotate, hs]
  simp

/-- An initialized filter of `n` entries after `m` updates: its cursor has counted them, and from
the cursor on its entries are `w`. -/
structure RingHolds (n m : Nat) (w : List Byte) (st : FilterState) : Prop where
  initialized : st.f = true
  entries : st.h.length = n
  cursor : st.c = m % n
  window : st.h.rotate st.c = w

section
variable {n m : Nat} {w : List Byte} {st : FilterState}

theorem RingHolds.length_window (h : RingHolds n m w st) : w.length = n := by
  rw [← h.window, List.length_rotate, h.entries]

theorem RingHolds.exactSum_window (h : RingHolds n m w st) : exactSum st.h = exactSum w := by
  rw [← h.window]
  exact exactSum_eq_of_perm (List.rotate_perm st.h st.c).symm

theorem ringHolds_coldStart (hf : st.f = false) (r : Byte) :
    RingHolds n 0 (List.replicate n r) (filterStep n st r).1 := by
  rw [filterStep_cold hf]
  exact ⟨rfl, List.length_replicate, (Nat.zero_mod n).symm, List.rotate_zero _⟩

/-- One update advances the cursor, and the oldest entry of the window makes room for the sample. -/
theorem RingHolds.filterStep (h : RingHolds n m w st) (hn : 1 ≤ n) (r : Byte) :
    RingHolds n (m + 1) (w.tail ++ [r]) (Machine.filterStep n st r).1 := by
  obtain ⟨hf, hl, hc, rfl⟩ := h
  have hlt : st.c < n := hc ▸ Nat.mod_lt m hn
  rw [filterStep_steady hf, ← mod_add_one_eq hlt]
  refine ⟨rfl, List.length_set.trans hl, ?_, ?_⟩
  · show (st.c + 1) % n = (m + 1) % n
    rw [hc, Nat.mod_add_mod]
  · show (st.h.set st.c r).rotate ((st.c + 1) % n) = _
    have hlen : (st.h.set st.c r).length = n := List.length_set.trans hl
    rw [← rotate_succ_set (hl ▸ hlt), ← hlen, List.rotate_mod]

/-- Updates with `rs` push as many entries out of the front of the window. -/
theorem RingHolds.filterRun (h : RingHolds n m w st) (hn : 1 ≤ n) (v : Nat) (rs : List Byte) :
    RingHolds n (m + rs.length) ((w ++ rs).drop rs.length) (Machine.filterRun n st v rs).1 := by
  induction rs generalizing m w st v with
  | nil => simpa [Machine.filterRun] using h
  | cons r rs ih =>
    have hne : w ≠ [] := List.ne_nil_of_length_pos (h.length_window ▸ hn)
    have hrun := ih (h.filterStep hn r) (Machine.filterStep n st r).2
    have hdrop : (w.tail ++ [r] ++ rs).drop rs.length = (w ++ r :: rs).drop (rs.length + 1) := by
      rw [List.append_assoc, List.singleton_append, ← List.tail_append_of_ne_nil hne,
        List.drop_tail]
    rwa [hdrop, Nat.add_right_comm] at hrun

/-- When the cursor is back at 0 the history is the window. -/
theorem RingHolds.eq_of_mod_eq_zero (h : RingHolds n m w st) (hm : m % n = 0) :
    st = { h := w, c := 0, f := true } := by
  obtain ⟨hf, -, hc, hw⟩ := h
  rw [hc, hm, List.rotate_zero] at hw
  rw [← hf, ← hw, ← hm, ← hc]

/-- A cold start and then `rs`. -/
theorem ringHolds_filterRun_cold (hn : 1 ≤ n) (hf : st.f = false) (v : Nat) (r0 : Byte)
    (rs : List Byte) :
    RingHolds n rs.length ((List.replicate n r0 ++ rs).drop rs.length)
      (Machine.filterRun n st v (r0 :: rs)).1 := by
  have h := (ringHolds_coldStart hf r0).filterRun hn (Machine.filterStep n st r0).2 rs
  rwa [Nat.zero_add] at h

/-- The value of the last update is the mean of the window it leaves. -/
theorem RingHolds.filterRun_value (h : RingHolds n m w st) (hn : 1 ≤ n) (v : Nat) {rs : List Byte}
    (hrs : rs ≠ []) :
    (Machine.filterRun n st v rs).2 = exactSum ((w ++ rs).drop rs.length) / n := by
  rw [← (h.filterRun hn v rs).exactSum_window]
  obtain ⟨xs, x, rfl⟩ := (List.eq_nil_or_concat' rs).resolve_left hrs
  rw [filterRun_append_singleton, filterStep_steady (h.filterRun hn v xs).initialized]

end

/-- Settles O24: `N` updates push every old entry out of the window. -/
theorem ringOverwrite : Obligations.RingOverwrite := by
  intro n v h rs hn hl hrs
  have start : RingHolds n 0 h { h := h, c := 0, f := true } :=
    ⟨rfl, hl, (Nat.zero_mod n).symm, List.rotate_zero h⟩
  have hrun := start.filterRun hn v rs
  rw [Nat.zero_add, hrs] at hrun
  have hend := hrun.eq_of_mod_eq_zero (Nat.mod_self n)
  rwa [List.drop_left' hl] at hend

/-- Settles O25: the cursor has counted the updates since the cold start. -/
theorem whichEntryIsReplaced : Obligations.WhichEntryIsReplaced := by
  intro n c v h rs r0 x hn
  have hrun := ringHolds_filterRun_cold hn (st := { h := h, c := c, f := false }) rfl v r0 rs
  refine ⟨hrun.cursor, ?_⟩
  rw [← List.cons_append, filterRun_append_singleton, filterStep_steady hrun.initialized,
    hrun.cursor]

/-- A window of `n` copies of `r`, then `rs`: the newest samples and the copies still in it. -/
theorem exactSum_window (n : Nat) (r : Byte) (rs : List Byte) :
    exactSum ((List.replicate n r ++ rs).drop rs.length) =
      exactSum (rs.reverse.take n) + (n - rs.length) * r.toNat := by
  have hnew : exactSum (rs.reverse.take n) = exactSum (rs.drop (rs.length - n)) := by
    rw [List.take_reverse]
    exact exactSum_eq_of_perm (List.reverse_perm _)
  rw [hnew, List.drop_append, List.drop_replicate, List.length_replicate, exactSum_append,
    exactSum_replicate, Nat.add_comm]

/-- Settles O26: the cold start, the mean of the window, and a window of equal entries. -/
theorem windowOfTheMean : Obligations.WindowOfTheMean := by
  intro n c v h r0 hn
  have cold : RingHolds n 0 (List.replicate n r0)
      (filterStep n { h := h, c := c, f := false } r0).1 := ringHolds_coldStart rfl r0
  have hvalue : ∀ rs : List Byte, rs ≠ [] →
      (filterRun n { h := h, c := c, f := false } v (r0 :: rs)).2 =
        exactSum ((List.replicate n r0 ++ rs).drop rs.length) / n :=
    fun rs => cold.filterRun_value hn _
  refine ⟨rfl, fun rs hrs => (hvalue rs hrs).trans (by rw [exactSum_window]), fun m => ?_⟩
  cases m with
  | zero => rfl
  | succ m =>
    rw [List.replicate_succ, hvalue _ (by simp), ← List.replicate_add, List.drop_replicate,
      List.length_replicate, Nat.add_sub_cancel, exactSum_replicate_div hn]

end Sys2Proof.FilterRules
end

section
/-! PROOFS of the family 60_exceptions: which instruction a tick runs, and a command offered to an
engine that is not idle. -/

namespace Sys2Proof.Exceptions

open Sys2Proof.Machine Sys2Proof.Safety Sys2Proof.Laws Sys2Proof.StateRules Sys2Proof.FrameRules
  Sys2Proof.Acquisition

/-! ### The instruction of a tick (60_exceptions R98) -/

/-- Settles O41: the current instruction is the one decoded from the port of an idle engine, or from
`OPREG`; an idle engine with no offer makes the quiet move. -/
theorem stepRunsTheDecodedInstruction : Obligations.StepRunsTheDecodedInstruction := by
  intro s hb hr hc hp
  have runs {i : Instr} (hi : currentInstr s = some i) : step s = exec i (takeInput s) :=
    step_of_run (tickKind_run_iff.2 ⟨hb, hr, hc, hp, hi⟩)
  refine ⟨fun hq hv i hd => ?_, fun k i hq hd => ?_, fun hq hv => ?_⟩
  · obtain rfl : decodeCmd (hostInput s).cmdOp = i := Except.ok.inj hd
    exact runs (by rw [currentInstr_idle hq, if_pos hv])
  · obtain rfl : decodeCmd s.opreg = i := Except.ok.inj hd
    exact runs (currentInstr_step hq)
  · exact step_of_move hb (.quiet hr hp hq hv)

/-! ### An offer to a busy engine (60_exceptions R98 (b)) -/

theorem hostInput_of_host_cons {s : State} {h : HostInput} {hs : List HostInput}
    (hh : s.host = h :: hs) : hostInput s = h := by
  rw [hostInput, hh]

theorem commandAccepted_of_busy {s : State} (h : busy s = true) : commandAccepted s = false := by
  rw [commandAccepted, cmdReady, h, Bool.not_true, Bool.and_false, Bool.false_and]

theorem currentInstr_of_busy {s : State} (h : busy s = true) :
    currentInstr s = some (decodeCmd s.opreg) := by
  cases hq : s.seq with
  | idle => exact absurd hq (busy_iff.1 h)
  | step k => exact currentInstr_step hq

/-- A step looks at the tick's host levels only for a reset, for contended lines and for the current
instruction. -/
theorem step_congr {s s' : State} (ht : takeInput s' = takeInput s)
    (hr : (hostInput s').rst = (hostInput s).rst) (hc : contended s' = contended s)
    (hi : currentInstr s' = currentInstr s) : step s' = step s := by
  have hb : s'.build = s.build := congrArg (·.build) ht
  have hp : s'.ptmr = s.ptmr := congrArg (·.ptmr) ht
  have hk : tickKind s' = tickKind s := by simp only [tickKind, hb, hr, hc, hp, hi]
  rw [step, step, hk, ht]

/-- Settles O46: the offer is neither the reset nor the foreign driver of the tick, and the instruction
of a busy engine is the one in `OPREG`. -/
theorem offerWhileBusyChangesNothing : Obligations.OfferWhileBusyChangesNothing := by
  intro s h hs v op hbusy hh
  have hin := hostInput_of_host_cons hh
  refine ⟨commandAccepted_of_busy hbusy, step_congr ?_ ?_ ?_ ?_⟩
  · rw [takeInput, takeInput, hh]
    rfl
  · rw [hin]
    rfl
  · rw [contended, contended, hin]
    rfl
  · rw [currentInstr_of_busy hbusy]
    exact currentInstr_of_busy hbusy

/-! ### An offer during COMPLETE (60_exceptions R98 (c)) -/

/-- An idle engine accepts the command of the tick, and the step is that acceptance. -/
theorem accepts_of_idle {s : State} {h : HostInput} {hs : List HostInput}
    (hb : s.build.legal = true) (hq : s.seq = .idle) (hp : s.ptmr = 0) (hh : s.host = h :: hs)
    (hr : h.rst = false) (hv : h.cmdValid = true) :
    commandAccepted s = true ∧
      step s = .next { s with opreg := h.cmdOp, seq := .step 0, host := hs } := by
  obtain rfl := hostInput_of_host_cons hh
  refine ⟨commandAccepted_iff.2 ⟨hv, hq, hr⟩, ?_⟩
  rw [step_of_move hb (.accept hr hp hq hv), accept, takeInput, hh, List.tail_cons]

/-- Settles O47: COMPLETE is performed with the offer left aside, and leaves an idle engine without a
pause, which accepts what the next tick offers. -/
theorem commandDuringCompletionWaits : Obligations.CommandDuringCompletionWaits := by
  rintro s h h' hs ⟨hb, -⟩ hq hp hh hr hf - hr' hv'
  obtain rfl := hostInput_of_host_cons hh
  have hc : contended s = false := contended_of_undisturbed hf
  have hrun := tickKind_run_iff.2 ⟨hb, hr, hc, hp, currentInstr_step hq⟩
  have hbusy : busy s = true := by rw [busy, hq]
  have hhost : (seqStep 37 (takeInput s)).host = h' :: hs := by
    rw [seqStep_host, takeInput, hh, List.tail_cons]
  have hbuild : (seqStep 37 (takeInput s)).build.legal = true := by rwa [seqStep_build]
  exact ⟨rspValid_iff.2 ⟨⟨_, hrun⟩, hq⟩, commandAccepted_of_busy hbusy,
    seqStep 37 (takeInput s), step_of_move hb (.perform 37 hr hc hp hq), rfl, seqStep_opreg _ _,
    accepts_of_idle hbuild rfl rfl hhost hr' hv'⟩

end Sys2Proof.Exceptions
end

section
/-! PROOFS of the family 70_reset_and_hazards: reset, progress, and how long an operation takes. -/

namespace Sys2Proof.ResetAndTicks

open Sys2Proof.Machine Sys2Proof.Safety Sys2Proof.Laws Sys2Proof.StateRules Sys2Proof.Operations
  Sys2Proof.Scripts Sys2Proof.Acquisition Sys2Proof.FilterRules Sys2Proof.Refusals
  Sys2Proof.Exceptions

/-! ### Reset (70_reset R107, R108, R110) -/

/-- `rsp_valid` is 0 in a tick of reset: such a tick runs no instruction. -/
theorem rspValid_of_rst {s : State} (hr : (hostInput s).rst = true) : rspValid s = false := by
  rw [Bool.eq_false_iff]
  intro hv
  obtain ⟨⟨i, hk⟩, -⟩ := rspValid_iff.1 hv
  obtain ⟨-, hr', -⟩ := tickKind_run_iff.1 hk
  simp [hr] at hr'

/-- `rsp_valid` is 0 while the engine is idle: only step 37 raises it (10_state R29). -/
theorem rspValid_of_idle {s : State} (hq : s.seq = .idle) : rspValid s = false := by
  rw [Bool.eq_false_iff]
  intro hv
  obtain ⟨-, hq'⟩ := rspValid_iff.1 hv
  simp [hq] at hq'

theorem commandAccepted_of_rst {s : State} (hr : (hostInput s).rst = true) :
    commandAccepted s = false := by
  rw [commandAccepted, hr, Bool.not_true, Bool.and_false]

/-- Settles O43: with `rst = 1` the step is the reset move, which leaves an idle engine. -/
theorem resetBeatsEverything : Obligations.ResetBeatsEverything := by
  intro s hb hr
  have hstep : step s = .next (resetEngine (takeInput s)) := step_of_move hb (.reset hr)
  refine ⟨commandAccepted_of_rst hr, rspValid_of_rst hr, hstep, fun t ht => ?_⟩
  obtain rfl : resetEngine (takeInput s) = t := Host.Outcome.next.inj (hstep.symm.trans ht)
  rfl

theorem histRead_powerOn {b : Build} {a : Nat} (ha : a < b.n) :
    histRead (State.powerOn b) a = some 0 := by
  simp [histRead, State.powerOn, ha]

/-- Settles O44: the registers stand in the definition; the history is `N` copies of 0. -/
theorem resetValues : Obligations.ResetValues :=
  ⟨rfl, rfl, fun _ => ⟨rfl, rfl, rfl, rfl, rfl, rfl, rfl, List.length_replicate,
    fun _ => histRead_powerOn, rfl, rfl, rfl, rfl, rfl, rspValid_of_idle rfl⟩⟩

/-- The power-on state is its own reset, so the invariant of reset states is the one it has. -/
theorem inv_powerOn {b : Build} (hb : b.legal = true) : Inv (State.powerOn b) := by
  obtain ⟨hn, -, -⟩ := legal_iff.1 hb
  exact inv_resetEngine (s := State.powerOn b) hb hn

/-- Settles O51: the default build is a legal one. -/
theorem invariantAtReset : Obligations.InvariantAtReset :=
  ⟨inv_powerOn (by decide), fun _ => inv_powerOn⟩

/-- Settles O59: reset leaves an idle engine with a cold filter, whatever it was doing, and the
`FilterStep` of a FREAD is then the cold start. -/
theorem coldStartFollowsEveryReset : Obligations.ColdStartFollowsEveryReset := by
  intro s hb
  obtain ⟨hlegal, hw, hq⟩ := Ready.resetEngine hb
  have hcold := filterStep_cold (n := s.build.n) (st := filterOf (resetEngine s)) rfl (nextSample s)
  refine ⟨freadEffect (resetEngine s), execRun_fread hlegal hw hq, ?_, ?_, ?_, ?_, rfl⟩
  · show BitVec.ofNat 8 (filterStep s.build.n (filterOf (resetEngine s)) (nextSample s)).2 = _
    rw [hcold, BitVec.ofNat_toNat, BitVec.setWidth_eq]
  · exact congrArg (·.1.h) hcold
  · exact congrArg (·.1.c) hcold
  · exact congrArg (·.1.f) hcold

/-! ### Progress (70_reset R122, 60_exceptions R94) -/

/-- A step that is not refused goes on: there is no fault (60_exceptions R94). -/
theorem goesOn_of_not_refused {s : State} (h : ¬ ∃ r, step s = .refused r) : GoesOn (step s) := by
  cases e : step s with
  | next t => exact ⟨t, rfl⟩
  | fault f => cases f
  | refused r => exact absurd ⟨r, e⟩ h

/-- Settles O53: neither cause of a refusal is there. -/
theorem neverStuck : Obligations.NeverStuck := by
  intro s hb hf
  refine goesOn_of_not_refused fun h => ?_
  rcases exists_step_refused_iff.1 h with hb' | ⟨-, hc⟩
  · simp [hb] at hb'
  · simp [contended_of_undisturbed hf] at hc

/-! ### Ticks without a reset or anything foreign -/

theorem undisturbed_add (a b : Nat) (hs : List HostInput) :
    undisturbed (a + b) hs = true ↔ undisturbed a hs = true ∧ undisturbed b (hs.drop a) = true := by
  rw [undisturbed, List.take_add, List.all_append, Bool.and_eq_true, undisturbed, undisturbed]

theorem undisturbed_succ (m : Nat) (hs : List HostInput) :
    undisturbed (m + 1) hs = true ↔ undisturbed 1 hs = true ∧ undisturbed m hs.tail = true := by
  rw [Nat.add_comm, undisturbed_add, List.drop_one]

theorem hostInput_of_undisturbed {s : State} (h : undisturbed 1 s.host = true) :
    (hostInput s).rst = false ∧ (hostInput s).foreign = false := by
  cases hh : s.host with
  | nil => simp [hostInput, hh]
  | cons i hs => simpa [undisturbed, hostInput, hh] using h

/-- `s` when the pause that is running has passed: nothing but the pause timer, and the host's plan,
has changed (40_acquisition R75). -/
def afterPause (s : State) : State := { s with ptmr := 0, host := s.host.drop s.ptmr }

theorem afterPause_of_no_pause {s : State} (hp : s.ptmr = 0) : afterPause s = s := by
  rw [afterPause, hp, List.drop_zero, ← hp]

theorem afterPause_waitTick {s : State} (hp : s.ptmr ≠ 0) :
    afterPause (waitTick (takeInput s)) = afterPause s := by
  simp [afterPause, waitTick, takeInput, Nat.sub_add_cancel (Nat.one_le_iff_ne_zero.2 hp)]

theorem stepRun_pause {p : Nat} {s : State} (hb : s.build.legal = true) (hp : s.ptmr = p)
    (hu : undisturbed p s.host = true) : stepRun p s = .next (afterPause s) := by
  induction p generalizing s with
  | zero => rw [stepRun, afterPause_of_no_pause hp]
  | succ p ih =>
    obtain ⟨hnow, hlater⟩ := (undisturbed_succ p s.host).1 hu
    obtain ⟨hr, hf⟩ := hostInput_of_undisturbed hnow
    have hrunning : s.ptmr ≠ 0 := by omega
    have hwait : step s = .next (waitTick (takeInput s)) :=
      step_of_move hb (.pause hr (contended_of_undisturbed hf) hrunning)
    have hleft : (waitTick (takeInput s)).ptmr = p := by simp [hp]
    rw [stepRun_succ_of_next hwait, ← afterPause_waitTick hrunning]
    exact ih hb hleft hlater

/-! ### An event sees neither the host nor the pause -/

theorem complete_update (s : State) (p : Nat) (hs : List HostInput) :
    complete { s with ptmr := p, host := hs } = { complete s with ptmr := p, host := hs } := by
  by_cases ho : s.opreg = 0
  · rw [complete, complete, if_pos ho, if_pos ho]
    rfl
  · rw [complete, complete, if_neg ho, if_neg ho]
    cases hi : s.init
    · simp [completeFread, hi, coldStart, histFill]
    · simp [completeFread, hi, steadyState, setMean, advanceCursor, histStore]

theorem stepAction_update (a : StepKind) (s : State) (p : Nat) (hs : List HostInput) :
    stepAction a { s with ptmr := p, host := hs } =
      { stepAction a s with ptmr := p, host := hs } := by
  cases a with
  | rspSample k => cases h : s.answer <;> simp [stepAction, sampleBit, pinRead, drawn, h]
  | complete => exact complete_update s p hs
  | _ => rfl

theorem writeLine_update (w : Option (Line × Bit)) (s : State) (p : Nat) (hs : List HostInput) :
    writeLine w { s with ptmr := p, host := hs } = { writeLine w s with ptmr := p, host := hs } := by
  rcases w with _ | ⟨_ | _ | _, b⟩ <;> rfl

/-- A step of the sequencer starts its own pause, whatever was left of the one before it. -/
theorem seqStep_update (k : Fin 38) (s : State) (p : Nat) (hs : List HostInput) :
    seqStep k { s with ptmr := p, host := hs } = { seqStep k s with host := hs } := by
  rw [seqStep, stepAction_update, writeLine_update]
  simp [seqStep, startPause, goTo]

/-- `s` with another plan of the host. -/
def withHost (hs : List HostInput) (s : State) : State := { s with host := hs }

theorem offer_withHost (op : Bit) (hs : List HostInput) :
    Function.Commute (offer op) (withHost hs) := by
  intro s
  cases hq : s.seq with
  | idle => rw [offer_idle hq, offer_idle (s := withHost hs s) hq]; rfl
  | step k =>
    rw [offer_step hq, offer_step (s := withHost hs s) hq]
    exact seqStep_update k s s.ptmr hs

theorem offer_iterate_withHost (op : Bit) (m : Nat) (hs : List HostInput) (s : State) :
    (offer op)^[m] (withHost hs s) = withHost hs ((offer op)^[m] s) :=
  (offer_withHost op hs).iterate_left m s

/-! ### The ticks of the rows of the step table (70_reset R121) -/

/-- The rows of the step table still to be performed at a position (40_acquisition R63). -/
def rowsFrom : Seq → List StepKind
  | .idle => []
  | .step k => stepTable.drop k.val

theorem rowsFrom_step : ∀ k : Fin 38,
    rowsFrom (.step k) = stepKind k :: rowsFrom (nextSeq k) := by
  decide

/-- The ticks of some rows: one each, and `T_SETTLE` for every pause after one of them. -/
def rowsTicks (b : Build) (rows : List StepKind) : Nat :=
  rows.length + rows.countP stepPause * b.tSettle

theorem rowsTicks_nil (b : Build) : rowsTicks b [] = 0 := by simp [rowsTicks]

theorem rowsTicks_cons (b : Build) (a : StepKind) (rows : List StepKind) :
    rowsTicks b (a :: rows) = 1 + ((if stepPause a then b.tSettle else 0) + rowsTicks b rows) := by
  simp only [rowsTicks, List.length_cons, List.countP_cons, Nat.add_mul]
  split <;> omega

theorem rowsTicks_stepTable (b : Build) : rowsTicks b stepTable = 38 + 29 * b.tSettle := rfl

/-- The pause that is running passes, and then the step is performed. -/
theorem stepRun_seqStep {s : State} {k : Fin 38} (hb : s.build.legal = true) (hq : s.seq = .step k)
    (hu : undisturbed (s.ptmr + 1) s.host = true) :
    stepRun (s.ptmr + 1) s = .next (withHost (s.host.drop (s.ptmr + 1)) (seqStep k s)) := by
  obtain ⟨hpause, hnow⟩ := (undisturbed_add s.ptmr 1 s.host).1 hu
  obtain ⟨hr, hf⟩ := hostInput_of_undisturbed (s := afterPause s) hnow
  have hstep : step (afterPause s) = .next (seqStep k (takeInput (afterPause s))) :=
    step_of_move hb (.perform k hr (contended_of_undisturbed hf) rfl hq)
  rw [stepRun_add (stepRun_pause hb rfl hpause), stepRun_succ_of_next hstep, stepRun, withHost,
    ← seqStep_update k s 0, takeInput, afterPause, List.tail_drop]

/-- The rows that are left at a position take, after what is left of the pause, their ticks, and do
what their events do one after the other, whatever is offered meanwhile (60_exceptions R98 (b)). -/
theorem stepRun_rows (op : Bit) {rows : List StepKind} {s : State} (hb : s.build.legal = true)
    (hrows : rowsFrom s.seq = rows) (hp : pauseWf s)
    (hu : undisturbed (s.ptmr + rowsTicks s.build rows) s.host = true) :
    stepRun (s.ptmr + rowsTicks s.build rows) s =
      .next (withHost (s.host.drop (s.ptmr + rowsTicks s.build rows))
        ((offer op)^[rows.length] s)) := by
  induction rows generalizing s with
  | nil =>
    cases hq : s.seq with
    | idle =>
      have hp0 : s.ptmr = 0 := by simpa [pauseWf, pauseDue, hq] using hp
      rw [hp0, rowsTicks_nil]
      rfl
    | step k => simp [hq, rowsFrom_step] at hrows
  | cons a rows ih =>
    cases hq : s.seq with
    | idle => simp [hq, rowsFrom] at hrows
    | step k =>
      rw [hq, rowsFrom_step] at hrows
      obtain ⟨rfl, hrest⟩ := List.cons.inj hrows
      have hticks : s.ptmr + rowsTicks s.build (stepKind k :: rows) =
          s.ptmr + 1 + ((seqStep k s).ptmr + rowsTicks (seqStep k s).build rows) := by
        rw [rowsTicks_cons, seqStep_ptmr, seqStep_build, Nat.add_assoc]
      rw [hticks] at hu ⊢
      obtain ⟨hnow, hlater⟩ := (undisturbed_add _ _ _).1 hu
      have hrun := ih (s := withHost (s.host.drop (s.ptmr + 1)) (seqStep k s))
        (by rwa [withHost, seqStep_build]) hrest (pauseWf_seqStep k s) hlater
      rw [stepRun_add (stepRun_seqStep hb hq hnow)]
      refine hrun.trans ?_
      rw [offer_iterate_withHost, List.length_cons, Function.iterate_succ_apply, offer_step hq]
      simp [withHost]

/-! ### A whole operation in ticks -/

theorem offer_iterate_effect {s : State} (op : Bit) (hb : s.build.legal = true) (hw : histWf s)
    (hq : s.seq = .idle) :
    (offer op)^[operationEvents] s = if op = 0 then acqEffect s else freadEffect s := by
  refine Host.Outcome.next.inj ((execRun_command op operationEvents hb).symm.trans ?_)
  have hop : op = 0 ∨ op = 1 := by decide +revert
  rcases hop with rfl | rfl
  · exact execRun_acq hb hq
  · exact execRun_fread hb hw hq

/-- The 38 events after an acceptance leave what the whole operation leaves. -/
theorem offer_iterate_accept {s : State} (op : Bit) (hb : s.build.legal = true) (hw : histWf s)
    (hq : s.seq = .idle) :
    (offer op)^[38] (accept op s) = if op = 0 then acqEffect s else freadEffect s := by
  rw [← offer_iterate_effect op hb hw hq, ← offer_idle hq, ← Function.iterate_succ_apply]
  rfl

/-- The ticks that follow an acceptance, whatever the host's plan `hs` offers in them. -/
theorem stepRun_accepted {s : State} {hs : List HostInput} (op : Bit) (hb : s.build.legal = true)
    (hw : histWf s) (hq : s.seq = .idle) (hp : s.ptmr = 0)
    (hu : undisturbed (38 + 29 * s.build.tSettle) hs = true) :
    stepRun (38 + 29 * s.build.tSettle) (withHost hs (accept op s)) =
      .next (withHost (hs.drop (38 + 29 * s.build.tSettle))
        (if op = 0 then acqEffect s else freadEffect s)) := by
  have hticks : s.ptmr + rowsTicks s.build stepTable = 38 + 29 * s.build.tSettle := by
    rw [hp, Nat.zero_add, rowsTicks_stepTable]
  rw [← hticks] at hu ⊢
  refine (stepRun_rows op (s := withHost hs (accept op s)) (rows := stepTable) hb rfl
    (hp.trans_le (Nat.zero_le _)) hu).trans ?_
  rw [offer_iterate_withHost, show stepTable.length = 38 from rfl, offer_iterate_accept op hb hw hq]
  rfl

/-- Settles O35: the first tick accepts the command, and the 38 rows take theirs. -/
theorem operationTakesItsTicks : Obligations.OperationTakesItsTicks := by
  intro s h hs hb hw hq hp hh hv hu
  obtain ⟨hnow, hlater⟩ := (undisturbed_succ (38 + 29 * s.build.tSettle) s.host).1
    (Nat.add_comm 1 _ ▸ hu)
  obtain ⟨hr, -⟩ := hostInput_of_undisturbed hnow
  rw [hostInput_of_host_cons hh] at hr
  rw [hh, List.tail_cons] at hlater
  obtain ⟨-, haccept⟩ := accepts_of_idle hb hq hp hh hr hv
  rw [operationTicks, Nat.add_comm, stepRun_succ_of_next haccept, hh, List.drop_succ_cons]
  refine (stepRun_accepted h.cmdOp hb hw hq hp hlater).trans ?_
  split <;> rfl

end Sys2Proof.ResetAndTicks
end
